-- ==== Sys2Proof/Word.lean ====
section
/-!
DEFINITION. The word types of the display core and its plainest arithmetic.
Every integer of the block is unsigned (00_scope.md R10).
-/

namespace Sys2Proof

/-- One byte of a host command (30_encoding.md R83) and a character code (R82). -/
abbrev Byte := BitVec 8

/-- The integer operands `n` and `h`, CD_HOURS, CD_SUB and FAULT_INFO: `WORD` = 32 bits
(00_scope.md R8; 10_state.md R30). -/
abbrev Word := BitVec 32

/-- A column image `ci[4:0]`: bit `4 - r` is the LED of logical row `r`, 1 means lit
(10_state.md R23). -/
abbrev ColImage := BitVec 5

/-- The blank column `0b00000` (00_scope.md R13, 30_encoding.md R80). -/
def blankColumn : ColImage := 0

/-- `zext_32` of a byte (00_scope.md R10). -/
def zext32 (b : Byte) : Word := b.setWidth 32

end Sys2Proof
end

