-- ==== Sys2Proof/Config.lean ====
section
/-!
DEFINITION. What an implementation fixes (00_scope.md R7, R8) and the free values: constants with no
body, so that no proof can see what they are.
-/

namespace Sys2Proof

/-! ## Font ROM -/

/-- A glyph of width class 1, 2 or 3: exactly as many column images, column 0 first
(30_encoding.md R80). -/
inductive Glyph where
  | narrow (c0 : ColImage)
  | medium (c0 c1 : ColImage)
  | wide (c0 c1 c2 : ColImage)
  deriving DecidableEq, Repr, Inhabited

/-- A font ROM: the triple of tables `(W1, W2, W3)` of 40_font_rom.md R100 with the constraints of
R101. (a) is in the types; (b) to (e) are the proof fields. -/
structure FontRom where
  w1 : Byte → Option (Vector ColImage 1)
  w2 : Byte → Option (Vector ColImage 2)
  w3 : Byte → Option (Vector ColImage 3)
  /-- R101 (b): at most one width class holds a character. -/
  unique : ∀ c, (w1 c).isSome.toNat + (w2 c).isSome.toNat + (w3 c).isSome.toNat ≤ 1
  /-- R101 (c): the glyph of '1' is one full column. -/
  one : w1 0x31 = some #v[0b11111]
  /-- R101 (d): '2' is in W3. -/
  two : (w3 0x32).isSome
  /-- R101 (d): '8' is in W3. -/
  eight : (w3 0x38).isSome
  /-- R101 (e): '0' is supported. -/
  zero : (w1 0x30).isSome ∨ (w2 0x30).isSome ∨ (w3 0x30).isSome

/-- The columns of a glyph of class 1. -/
def Glyph.asW1 : Glyph → Option (Vector ColImage 1)
  | .narrow a => some #v[a]
  | .medium _ _ => none
  | .wide _ _ _ => none

/-- The columns of a glyph of class 2. -/
def Glyph.asW2 : Glyph → Option (Vector ColImage 2)
  | .narrow _ => none
  | .medium a b => some #v[a, b]
  | .wide _ _ _ => none

/-- The columns of a glyph of class 3. -/
def Glyph.asW3 : Glyph → Option (Vector ColImage 3)
  | .narrow _ => none
  | .medium _ _ => none
  | .wide a b c => some #v[a, b, c]

theorem Glyph.one_class (g : Glyph) :
    g.asW1.isSome.toNat + g.asW2.isSome.toNat + g.asW3.isSome.toNat = 1 := by
  cases g <;> rfl

/-- The font ROM in which each character has at most one glyph, given as one table of glyphs. Every
font ROM that meets R101 is of this form. -/
def FontRom.ofGlyphs (g : Byte → Option Glyph) (h1 : g 0x31 = some (.narrow 0b11111))
    (h2 : ((g 0x32).bind Glyph.asW3).isSome) (h8 : ((g 0x38).bind Glyph.asW3).isSome)
    (h0 : (g 0x30).isSome) : FontRom where
  w1 c := (g c).bind Glyph.asW1
  w2 c := (g c).bind Glyph.asW2
  w3 c := (g c).bind Glyph.asW3
  unique c := by
    cases h : g c with
    | none => simp
    | some x => simpa using le_of_eq x.one_class
  one := by rw [h1]; rfl
  two := h2
  eight := h8
  zero := by
    obtain ⟨x, hx⟩ := Option.isSome_iff_exists.mp h0
    rw [hx]
    cases x <;> simp [Glyph.asW1, Glyph.asW2, Glyph.asW3]

/-- Free value (log 5): the glyph of a character the source constrains in no way
(91_not_in_source.md N1). -/
opaque Config.freeGlyph : Byte → Option Glyph

/-- Free value (log 5): the three columns of '2' and of '8', whose width alone is given
(40_font_rom.md R101 (d)). -/
opaque Config.freeWideGlyph : Byte → ColImage × ColImage × ColImage

/-- Free value (log 5): the glyph of '0', which is supported, of any width (R101 (e)). -/
opaque Config.freeZeroGlyph : Glyph

/-- Every character's glyph: the free values, within the constraints of 40_font_rom.md R101. -/
def Config.glyph (c : Byte) : Option Glyph :=
  if c = 0x31 then some (.narrow 0b11111)
  else if c = 0x32 ∨ c = 0x38 then
    some (.wide (Config.freeWideGlyph c).1 (Config.freeWideGlyph c).2.1
      (Config.freeWideGlyph c).2.2)
  else if c = 0x30 then some Config.freeZeroGlyph
  else Config.freeGlyph c

/-- FONT_ROM: any font ROM that meets 40_font_rom.md R101 (92_eei_decisions.md D10; log 5). -/
def Config.fontRom : FontRom :=
  FontRom.ofGlyphs Config.glyph (by simp [Config.glyph]) (by simp [Config.glyph, Glyph.asW3])
    (by simp [Config.glyph, Glyph.asW3]) (by simp [Config.glyph])

/-! ## Position map -/

/-- POS_MAP: logical cell `(r, k)` to physical cell `(pr, pc)`; in bounds by its type, and injective
(10_state.md R27; 90_conflicts.md C8). -/
structure PosMap where
  cell : Fin 5 → Fin 5 → Fin 9 × Fin 3
  /-- R27 (b). -/
  injective : ∀ r k r' k', cell r k = cell r' k' → r = r' ∧ k = k'

/-- Free value (log 6): the entries of the position map, which the source does not give
(91_not_in_source.md N2). -/
opaque Config.freeCell : Fin 5 → Fin 5 → Fin 9 × Fin 3

/-- An admissible map that stands in where the free entries are not injective, so that
`Config.posMap` ranges over the admissible maps and over nothing else (log 6). -/
def PosMap.standIn : PosMap where
  cell r k := (⟨(5 * r.val + k.val) / 3, by omega⟩, ⟨(5 * r.val + k.val) % 3, by omega⟩)
  injective := by decide

/-- POS_MAP: any injective map in bounds (92_eei_decisions.md D9; log 6). -/
def Config.posMap : PosMap :=
  if h : ∀ r k r' k', Config.freeCell r k = Config.freeCell r' k' → r = r' ∧ k = k' then
    ⟨Config.freeCell, h⟩
  else PosMap.standIn

/-! ## Parameters -/

/-- The parameters a rule of the model reads (00_scope.md R8). The block is defined for every value of
them: `State.resetWith`, `execWith` and `stepWith` take them as an argument. -/
structure Params where
  /-- `CAP`: image buffer capacity in column images. -/
  cap : Nat
  /-- `FONT_ROM`. -/
  font : FontRom
  /-- `POS_MAP`. -/
  posMap : PosMap
  /-- `TICKS_PER_HOUR`. -/
  ticksPerHour : Word
  /-- `HOURS_PER_UNIT`. -/
  hoursPerUnit : Word
  /-- `GPIO_MAY_FAIL`. -/
  gpioMayFail : Bool

/-- Parameters of a block that can show something: CAP holds the trailing blank frame (00_scope.md
R9), an hour has a sub-tick, and the displayed number has a divisor. -/
structure Params.Admissible (p : Params) : Prop where
  blankFrame : 5 ≤ p.cap
  anHour : p.ticksPerHour ≠ 0
  aUnit : p.hoursPerUnit ≠ 0

/-- `CAP`, at its default 32 (00_scope.md R8; 90_conflicts.md C5; log 4). -/
def Config.cap : Nat := 32

/-- The parameters of the block that `exec`, `step` and `State.reset` are: the values 00_scope.md R7
fixes and the defaults of R8 (log 4, log 7), and the two constants the source does not give (log 5,
log 6). -/
def Config.params : Params where
  cap := Config.cap
  font := Config.fontRom
  posMap := Config.posMap
  ticksPerHour := 28800
  hoursPerUnit := 24
  gpioMayFail := true

/-! ## Timing parameters: in no rule (70_reset_and_hazards.md R270, R271; log 18) -/

/-- `DWELL`, in unnamed time units (00_scope.md R7). -/
def Config.dwell : Nat := 5

/-- Free value (log 18): the exact scroll frequency. -/
opaque Config.freeScrollHz : Nat

/-- `SCROLL_HZ`: 8 to 16 Hz (00_scope.md R8; 91_not_in_source.md N3). -/
def Config.scrollHz : Nat := 8 + Config.freeScrollHz % 9

/-- `COUNT_HZ`: 28,800 ticks per 3,600 s (00_scope.md R8). -/
def Config.countHz : Nat := 8

/-! ## Free values of a run -/

/-- Free value (log 3): whether the `k`-th output write fails, where `State.pinScript` does not say
(43_display_driver.md R161). -/
opaque Config.freePinFail : Nat → Bool

/-- Free value (log 1): which of the six enabled-step conditions of 20_memory.md R69 the `k`-th
choice names, where `State.sched` does not say. -/
opaque Config.freeChoice : Nat → Fin 6

/-- Free value (log 21): what a read of the image buffer outside its cells gives; no state reachable
from reset makes one (10_state.md R25). -/
opaque Config.freeColumn : Nat → ColImage

end Sys2Proof
end

