-- ==== Sys2Proof/Machine/State.lean ====
section
/-!
DEFINITION. The architectural state (10_state.md), the state after reset (70_reset_and_hazards.md
R251), and the reasons for which a step stops.
-/

namespace Sys2Proof.Machine

/-- A 1-bit output level, HIGH = 1 and LOW = 0 (10_state.md R28). -/
inductive Level where
  | low
  | high
  deriving DecidableEq, Repr

/-- CD_STATE (10_state.md R35); its 2-bit encoding is `CdState.code`, and 3 is never held. -/
inductive CdState where
  | idle
  | running
  | stopped
  deriving DecidableEq, Repr

/-- DRV_PHASE (43_display_driver.md R162); its 3-bit encoding is `DrvPhase.code`. Each phase names
the step the driver takes next. -/
inductive DrvPhase where
  | off
  | snap
  | colOn
  | row
  | dwell
  | rowOff
  | colOff
  deriving DecidableEq, Repr

/-- FAULT_CODE (60_exceptions.md R220); its 3-bit encoding is `FaultCode.code`. -/
inductive FaultCode where
  | none
  | capacityExceeded
  | gpioWriteFailure
  | protocolViolation
  | illegalCommand
  deriving DecidableEq, Repr

/-- The six enabled-step conditions of 20_memory.md R69, which are the steps of the five agents of
10_state.md R20 (the interrupt handlers are two of the six). -/
inductive Choice where
  /-- the host command port executes the next command of the host's stream -/
  | host
  /-- the scroll timer: SCROLL_EXPIRE -/
  | scrollTimer
  /-- the countdown timer: COUNT_SUBTICK -/
  | countTimer
  /-- the scroll interrupt handler: SCROLL_IRQ -/
  | scrollHandler
  /-- the countdown interrupt handler: COUNT_IRQ -/
  | countHandler
  /-- the display driver sequencer: the step of DRV_PHASE -/
  | driver
  deriving DecidableEq, Repr

/-- The state of the block. The last four fields are the model's own: they carry the choices the
spec leaves open (log 1, log 3). -/
structure State where
  /-- FRAME[0..4] (R24) -/
  frame : Vector ColImage 5
  /-- IMG_BUF[0..CAP-1], all of its cells (R25) -/
  imgBuf : List ColImage
  /-- IMG_LEN (R25) -/
  imgLen : Nat
  /-- CUR_VALID (R26) -/
  curValid : Bool
  /-- CUR_IDX (R26) -/
  curIdx : Nat
  /-- ROW_OUT[0..8], active low (R28) -/
  rowOut : Vector Level 9
  /-- COL_OUT[0..2], active high (R28) -/
  colOut : Vector Level 3
  /-- INIT_DONE, id 0x00 (R30, R31) -/
  initDone : Bool
  /-- LOOP_RUN, id 0x01 (R30, R32) -/
  loopRun : Bool
  /-- SCR_EN, id 0x02 (R30, R33) -/
  scrEn : Bool
  /-- SCR_PEND, id 0x03 (R30, R34) -/
  scrPend : Bool
  /-- CD_STATE, id 0x04 (R30, R35) -/
  cdState : CdState
  /-- CD_HOURS, id 0x05 (R30, R36) -/
  cdHours : Word
  /-- CD_SUB, id 0x06 (R30, R37) -/
  cdSub : Word
  /-- CD_EN, id 0x07 (R30, R38) -/
  cdEn : Bool
  /-- CD_PEND, id 0x08 (R30, R38) -/
  cdPend : Bool
  /-- FAULT_CODE, id 0x09 (R30, R39) -/
  faultCode : FaultCode
  /-- FAULT_INFO, id 0x0A (R30, R39) -/
  faultInfo : Word
  /-- IMASK: 1 exactly inside a critical section, so 0 between steps (R40; log 17) -/
  imask : Bool
  /-- DRV_PHASE (R42) -/
  drvPhase : DrvPhase
  /-- DRV_C, the physical column (R42) -/
  drvC : Fin 3
  /-- DRV_R, the physical row (R42) -/
  drvR : Fin 9
  /-- DRV_PHYS[pr][pc], the transformed image of the last snapshot (R42) -/
  drvPhys : Vector (Vector Bool 3) 9
  /-- the bytes of the commands the host still offers (R21, 30_encoding.md R84; log 10) -/
  hostQueue : List Byte
  /-- the model's own (log 1): the agents chosen next, the first at the head -/
  sched : List Choice
  /-- the model's own (log 1): how many choices the free value `Config.freeChoice` has made -/
  schedDraws : Nat
  /-- the model's own (log 3): whether the next output writes fail, the first at the head -/
  pinScript : List Bool
  /-- the model's own (log 3): how many draws the free value `Config.freePinFail` has made -/
  pinDraws : Nat
  deriving DecidableEq, Repr

/-- Why a step stops. Each is safe: the spec gives the block no step there. -/
inductive Fault where
  /-- FAULT_CODE is not 0: no agent has a step until reset (60_exceptions.md R221). Answered by
  every operation and by `step` in a faulted block. Safe (log 12). -/
  | halted (code : FaultCode) (info : Word)
  /-- The operation with this opcode or step id is not enabled in this state (20_memory.md R69).
  Answered by an internal step asked for outside its "Enabled when". Safe (log 13). -/
  | notEnabled (id : Byte)
  /-- No agent has an enabled step and the host offers no byte (70_reset_and_hazards.md R252).
  Answered by `step`. Safe (log 11). -/
  | idle
  deriving DecidableEq, Repr

/-- Why a step is refused. -/
inductive Refusal where
  /-- No meaning for the operation of this mnemonic. Answered by an arm of `exec` alone; no arm
  answers it any more. Safe. -/
  | notModelled (mnemonic : String)
  /-- The host's bytes are shorter than the command they start: refused at the boundary, the host is
  stuck on it (30_encoding.md R89). Answered by `step` when no other agent has an enabled step.
  Safe (log 11). -/
  | truncatedCommand
  deriving DecidableEq, Repr

/-- The state after reset of a block with these parameters (70_reset_and_hazards.md R251). IMG_BUF's
CAP cells and CUR_IDX, which R251 leaves unspecified, are 0: DESIGN CHOICE, unsafe (log 8, log 9). -/
def State.resetWith (p : Params) : State where
  frame := #v[0b00000, 0b00000, 0b00000, 0b00000, 0b00000]
  imgBuf := List.replicate p.cap 0b00000
  imgLen := 0
  curValid := false
  curIdx := 0
  rowOut := #v[.high, .high, .high, .high, .high, .high, .high, .high, .high]
  colOut := #v[.low, .low, .low]
  initDone := false
  loopRun := false
  scrEn := false
  scrPend := false
  cdState := .idle
  cdHours := 0
  cdSub := 0
  cdEn := false
  cdPend := false
  faultCode := .none
  faultInfo := 0
  imask := false
  drvPhase := .off
  drvC := 0
  drvR := 0
  drvPhys := #v[#v[false, false, false], #v[false, false, false], #v[false, false, false],
    #v[false, false, false], #v[false, false, false], #v[false, false, false],
    #v[false, false, false], #v[false, false, false], #v[false, false, false]]
  hostQueue := []
  sched := []
  schedDraws := 0
  pinScript := []
  pinDraws := 0

/-- The state after reset of the block at its default parameters (00_scope.md R8; log 4). -/
def State.reset : State := State.resetWith Config.params

end Sys2Proof.Machine
end

