-- ==== Sys2Proof/Machine/Operands.lean ====
section
/-!
DEFINITION. The indexed operands of the rules (IMG_BUF, FRAME, the outputs, DRV_PHYS), the output ids
of R161, and the encodings of the control registers (10_state.md R30).
-/

namespace Sys2Proof.Machine

/-! ## Column images, frame and image buffer -/

/-- Whether the LED of logical row `r` is lit in a column image: bit `ci[4 - r]` (10_state.md R23). -/
def rowBit (ci : ColImage) (r : Fin 5) : Bool := ci.getLsbD (4 - r.val)

/-- Logical cell (row `r`, column `k`) of a frame: `FRAME[k][4 - r]` (10_state.md R24). -/
def frameBit (f : Vector ColImage 5) (r k : Fin 5) : Bool := rowBit f[k] r

/-- The frame after a left shift: FRAME[0] leaves and `v` becomes FRAME[4] (42_scroll.md R142). -/
def shiftIn (f : Vector ColImage 5) (v : ColImage) : Vector ColImage 5 :=
  #v[f[1], f[2], f[3], f[4], v]

/-- `IMG_BUF[i]` (00_scope.md R11). Outside the cells the spec gives no value and makes no read
(10_state.md R25): a free value (log 21). -/
def imgAt (s : State) (i : Nat) : ColImage := s.imgBuf.getD i (Config.freeColumn i)

/-- The content `IMG_BUF[0 .. IMG_LEN-1]` (30_encoding.md R81). -/
def content (s : State) : List ColImage := s.imgBuf.take s.imgLen

/-! ## Outputs -/

/-- One of the 12 outputs (10_state.md R28). -/
inductive Output where
  | row (i : Fin 9)
  | col (j : Fin 3)
  deriving DecidableEq, Repr

/-- `id(OUT)`: `i` for ROW_OUT[i], `0x10 + j` for COL_OUT[j] (43_display_driver.md R161). -/
def Output.id : Output → Word
  | .row i => BitVec.ofNat 32 i.val
  | .col j => BitVec.ofNat 32 (0x10 + j.val)

/-- The level an output holds. -/
def outLevel (s : State) : Output → Level
  | .row i => s.rowOut[i]
  | .col j => s.colOut[j]

/-- `OUT <- level`, without the failure draw of R161. -/
def setOut (out : Output) (level : Level) (s : State) : State :=
  match out with
  | .row i => { s with rowOut := s.rowOut.set i level }
  | .col j => { s with colOut := s.colOut.set j level }

/-- `DRV_PHYS[pr][pc]`. -/
def physBit (s : State) (pr : Fin 9) (pc : Fin 3) : Bool := s.drvPhys[pr][pc]

/-! ## Encodings of the control registers -/

/-- The 2-bit encoding of CD_STATE (10_state.md R35). -/
def CdState.code : CdState → BitVec 2
  | .idle => 0
  | .running => 1
  | .stopped => 2

/-- The 3-bit encoding of DRV_PHASE (43_display_driver.md R162). -/
def DrvPhase.code : DrvPhase → BitVec 3
  | .off => 0
  | .snap => 1
  | .colOn => 2
  | .row => 3
  | .dwell => 4
  | .rowOff => 5
  | .colOff => 6

/-- The 3-bit encoding of FAULT_CODE (60_exceptions.md R220). -/
def FaultCode.code : FaultCode → BitVec 3
  | .none => 0
  | .capacityExceeded => 1
  | .gpioWriteFailure => 2
  | .protocolViolation => 3
  | .illegalCommand => 4

/-- The control and status registers, by the spec's own reference ids (10_state.md R30). No command
reads or writes one by id. -/
inductive ControlReg where
  | initDone
  | loopRun
  | scrEn
  | scrPend
  | cdState
  | cdHours
  | cdSub
  | cdEn
  | cdPend
  | faultCode
  | faultInfo
  deriving DecidableEq, Repr

/-- The reference id of a control register (10_state.md R30). -/
def ControlReg.id : ControlReg → Byte
  | .initDone => 0x00
  | .loopRun => 0x01
  | .scrEn => 0x02
  | .scrPend => 0x03
  | .cdState => 0x04
  | .cdHours => 0x05
  | .cdSub => 0x06
  | .cdEn => 0x07
  | .cdPend => 0x08
  | .faultCode => 0x09
  | .faultInfo => 0x0A

/-- A control register's value, zero-extended to a word (10_state.md R30). -/
def controlValue (s : State) : ControlReg → Word
  | .initDone => (BitVec.ofBool s.initDone).setWidth 32
  | .loopRun => (BitVec.ofBool s.loopRun).setWidth 32
  | .scrEn => (BitVec.ofBool s.scrEn).setWidth 32
  | .scrPend => (BitVec.ofBool s.scrPend).setWidth 32
  | .cdState => s.cdState.code.setWidth 32
  | .cdHours => s.cdHours
  | .cdSub => s.cdSub
  | .cdEn => (BitVec.ofBool s.cdEn).setWidth 32
  | .cdPend => (BitVec.ofBool s.cdPend).setWidth 32
  | .faultCode => s.faultCode.code.setWidth 32
  | .faultInfo => s.faultInfo

end Sys2Proof.Machine
end

