-- ==== Sys2Proof/Machine/Flags.lean ====
section
/-!
DEFINITION. The block's only flags: the pending flags, each with its timer's enable
(10_state.md R21, R33, R34, R38), and the interrupt mask (R40).
-/

namespace Sys2Proof.Machine

/-- The two interrupt sources (60_exceptions.md R223). -/
inductive Source where
  | scroll
  | countdown
  deriving DecidableEq, Repr

/-- The source's pending flag: SCR_PEND or CD_PEND. -/
def isPending (s : State) : Source → Bool
  | .scroll => s.scrPend
  | .countdown => s.cdPend

/-- The source's enable: SCR_EN or CD_EN. -/
def isEnabled (s : State) : Source → Bool
  | .scroll => s.scrEn
  | .countdown => s.cdEn

/-- The timer's event: the pending flag is set; it is one bit, so events coalesce
(10_state.md R34, R38). -/
def setPending (src : Source) (s : State) : State :=
  match src with
  | .scroll => { s with scrPend := true }
  | .countdown => { s with cdPend := true }

/-- Interrupt return: the handler "clears the timer's pending-event flag before returning", and the
main context resumes where it was; nothing is restored (60_exceptions.md R227). -/
def interruptReturn (src : Source) (s : State) : State :=
  match src with
  | .scroll => { s with scrPend := false }
  | .countdown => { s with cdPend := false }

/-- IMASK <- 1 at the start of a critical section (10_state.md R40). -/
def maskInterrupts (s : State) : State := { s with imask := true }

/-- IMASK <- 0 at its end (10_state.md R40). -/
def unmaskInterrupts (s : State) : State := { s with imask := false }

end Sys2Proof.Machine
end

