-- ==== Sys2Proof/Machine/Ops.lean ====
section
/-!
DEFINITION. The operations every rule is built from: raising a fault (60_exceptions.md R221), critical
sections (20_memory.md R64), the enabling conditions of a step (R69), output writes
(43_display_driver.md R161), and the pushes of the image buffer (41_image_encoder.md R110).
-/

namespace Sys2Proof.Machine

/-- Statements of a step: `ok` goes on, `error` has ended the step with a raised fault; both carry
the state reached. -/
abbrev Flow := Except State State

/-- The state a sequence of statements leaves, whether it went on or a raise ended it. -/
def settle : Flow → State
  | .ok s => s
  | .error s => s

/-- `raise Fault(code, info)`: FAULT_CODE and FAULT_INFO are written; the writes the step has made
stay (60_exceptions.md R221). -/
def raiseFault (code : FaultCode) (info : Word) (s : State) : State :=
  { s with faultCode := code, faultInfo := info }

/-- The statement `raise Fault(code, info)`, which ends the step (60_exceptions.md R221). -/
def raise (code : FaultCode) (info : Word) (s : State) : Flow := .error (raiseFault code info s)

/-- `atomic { ... }`: one indivisible step, with IMASK 1 inside it and 0 after it, however it ends
(20_memory.md R64, 10_state.md R40). -/
def atomic (body : State → Flow) (s : State) : State :=
  unmaskInterrupts (settle (body (maskInterrupts s)))

/-- One step of an agent: none in a faulted block (60_exceptions.md R221), none outside the step's
"Enabled when" (20_memory.md R69), and else the state the rule leaves. -/
def takeStep (id : Byte) (enabled : State → Bool) (rule : State → State) (s : State) :
    Host.Outcome State Fault Refusal :=
  if s.faultCode ≠ .none then .fault (.halted s.faultCode s.faultInfo)
  else if enabled s then .next (rule s)
  else .fault (.notEnabled id)

/-- A host command: one critical section that checks LOOP_RUN = 0 and the command's own precondition,
else raises PROTOCOL_VIOLATION with the opcode (30_encoding.md R84, R88). -/
def hostCommand (op : Byte) (pre : State → Bool) (body : State → Flow) (s : State) :
    Host.Outcome State Fault Refusal :=
  takeStep op (fun _ => true)
    (atomic fun t => if !t.loopRun && pre t then body t else raise .protocolViolation (zext32 op) t) s

/-- A host command with a reserved opcode raises ILLEGAL_COMMAND and has no other effect
(30_encoding.md R87). -/
def illegalCommand (op : Byte) (s : State) : Host.Outcome State Fault Refusal :=
  takeStep op (fun _ => true) (atomic fun t => raise .illegalCommand (zext32 op) t) s

/-! ## Output writes -/

/-- `draw fail`: the outcome the script gives, or else a free value (43_display_driver.md R161;
log 3). -/
def drawnFail (s : State) : Bool :=
  match s.pinScript with
  | b :: _ => b
  | [] => Config.freePinFail s.pinDraws

/-- The draw is used up. -/
def consumeDraw (s : State) : State :=
  match s.pinScript with
  | _ :: bs => { s with pinScript := bs }
  | [] => { s with pinDraws := s.pinDraws + 1 }

/-- The output write fails: writes may fail in this block and the draw says so (43_display_driver.md
R161; 00_scope.md R8, GPIO_MAY_FAIL). -/
def writeFails (p : Params) (s : State) : Bool := p.gpioMayFail && drawnFail s

/-- A draw is made, and used up, only where writes may fail (43_display_driver.md R161). -/
def useDraw (p : Params) (s : State) : State := if p.gpioMayFail then consumeDraw s else s

/-- `PinWrite(OUT, level)` (43_display_driver.md R161). -/
def pinWrite (p : Params) (out : Output) (level : Level) (s : State) : Flow :=
  if writeFails p s then raise .gpioWriteFailure out.id (useDraw p s)
  else .ok (setOut out level (useDraw p s))

/-! ## The image buffer -/

/-- `IMG_BUF[IMG_LEN] <- v; IMG_LEN <- IMG_LEN + 1` (41_image_encoder.md R110). -/
def storeColumn (v : ColImage) (s : State) : State :=
  { s with imgBuf := s.imgBuf.set s.imgLen v, imgLen := s.imgLen + 1 }

/-- `Push(v)`: CAPACITY_EXCEEDED with `CAP + 1` when the buffer is full (41_image_encoder.md R110). -/
def push (p : Params) (v : ColImage) (s : State) : Flow :=
  if s.imgLen = p.cap then raise .capacityExceeded (BitVec.ofNat 32 (p.cap + 1)) s
  else .ok (storeColumn v s)

/-- The pushes of a list of columns, in order; the first that would exceed CAP ends the step. -/
def pushAll (p : Params) : List ColImage → State → Flow
  | [], s => .ok s
  | v :: vs, s => (push p v s).bind (pushAll p vs)

/-- `BeginContent()` (41_image_encoder.md R111); CUR_IDX and FRAME are not written. -/
def beginContent (s : State) : State := { s with imgLen := 0, curValid := false }

/-- `EndContent()`: the blank frame, 5 blank columns (41_image_encoder.md R113). -/
def endContent (p : Params) : State → Flow := pushAll p (List.replicate 5 blankColumn)

end Sys2Proof.Machine
end

