-- ==== Sys2Proof/Machine/Driver.lean ====
section
/-!
DEFINITION. The multiplex display driver: RUN_DISPLAY_LOOP, the transform, and the six steps of the
sequencer (43_display_driver.md).
-/

namespace Sys2Proof.Machine

/-! ## The transform and the LEDs -/

/-- The logical cell that the map sends to a physical cell and that `lit` holds of exists
(43_display_driver.md R170). -/
def anyMapped (m : PosMap) (pr : Fin 9) (pc : Fin 3) (lit : Fin 5 → Fin 5 → Bool) : Bool :=
  (List.finRange 5).any fun r => (List.finRange 5).any fun k =>
    decide (m.cell r k = (pr, pc)) && lit r k

/-- `Transform(S)[pr][pc]` (43_display_driver.md R170). -/
def transformBit (m : PosMap) (f : Vector ColImage 5) (pr : Fin 9) (pc : Fin 3) : Bool :=
  anyMapped m pr pc fun r k => frameBit f r k

/-- `Transform(S)`: the 9 by 3 matrix (43_display_driver.md R170). -/
def transform (m : PosMap) (f : Vector ColImage 5) : Vector (Vector Bool 3) 9 :=
  Vector.ofFn fun pr => Vector.ofFn fun pc => transformBit m f pr pc

/-- The physical LED at `(pr, pc)` is lit: the cell is in the image of POS_MAP, its column is HIGH and
its row is LOW (10_state.md R29). -/
def ledLit (m : PosMap) (s : State) (pr : Fin 9) (pc : Fin 3) : Bool :=
  anyMapped m pr pc (fun _ _ => true) && decide (s.colOut[pc] = .high) &&
    decide (s.rowOut[pr] = .low)

/-! ## Steps -/

/-- DRV_R goes on to the next row, or after row 8 DRV_PHASE goes on (43_display_driver.md R162). -/
def advanceRow (after : DrvPhase) (s : State) : State :=
  if h : s.drvR.val < 8 then { s with drvR := ⟨s.drvR.val + 1, by omega⟩ }
  else { s with drvPhase := after }

/-- DRV_C goes on to the next column, or after column 2 the next step is a new snapshot
(43_display_driver.md R169). -/
def advanceColumn (s : State) : State :=
  if h : s.drvC.val < 2 then { s with drvC := ⟨s.drvC.val + 1, by omega⟩, drvPhase := .colOn }
  else { s with drvPhase := .snap }

/-- The snapshot and its transform, taken at once (43_display_driver.md R164). -/
def loadSnapshot (p : Params) (s : State) : State :=
  { s with drvPhys := transform p.posMap s.frame, drvC := 0, drvPhase := .colOn }

/-- The statements of DRV_COL_ON (43_display_driver.md R165). -/
def colOnBody (p : Params) (s : State) : Flow :=
  (pinWrite p (.col s.drvC) .high s).bind fun t => .ok { t with drvR := 0, drvPhase := .row }

/-- The level DRV_ROW writes: LOW for a lit row, HIGH for an unlit one (43_display_driver.md R166,
92_eei_decisions.md D11). -/
def rowLevel (s : State) : Level := if physBit s s.drvR s.drvC then .low else .high

/-- The statements of DRV_ROW (43_display_driver.md R166). -/
def rowBody (p : Params) (s : State) : Flow :=
  (pinWrite p (.row s.drvR) (rowLevel s) s).bind fun t => .ok (advanceRow .dwell t)

/-- The statements of DRV_ROW_OFF (43_display_driver.md R168). -/
def rowOffBody (p : Params) (s : State) : Flow :=
  (pinWrite p (.row s.drvR) .high s).bind fun t => .ok (advanceRow .colOff t)

/-- The statements of DRV_COL_OFF (43_display_driver.md R169). -/
def colOffBody (p : Params) (s : State) : Flow :=
  (pinWrite p (.col s.drvC) .low s).bind fun t => .ok (advanceColumn t)

/-- A driver step, enabled in the phase that names it (43_display_driver.md R162). -/
def driverStep (id : Byte) (phase : DrvPhase) (rule : State → State) (s : State) :
    Host.Outcome State Fault Refusal :=
  takeStep id (fun t => decide (t.drvPhase = phase)) rule s

/-- RUN_DISPLAY_LOOP (43_display_driver.md R163). -/
def execRunDisplayLoop (s : State) : Host.Outcome State Fault Refusal :=
  hostCommand 0x05 (fun t => t.initDone)
    (fun t => .ok { t with loopRun := true, drvPhase := .snap }) s

/-- DRV_SNAPSHOT: one critical section (43_display_driver.md R164). -/
def drvSnapshot (p : Params) : State → Host.Outcome State Fault Refusal :=
  driverStep 0x84 .snap (atomic fun t => .ok (loadSnapshot p t))

/-- DRV_COL_ON (43_display_driver.md R165). -/
def drvColOn (p : Params) : State → Host.Outcome State Fault Refusal :=
  driverStep 0x85 .colOn fun t => settle (colOnBody p t)

/-- DRV_ROW (43_display_driver.md R166). -/
def drvRow (p : Params) : State → Host.Outcome State Fault Refusal :=
  driverStep 0x86 .row fun t => settle (rowBody p t)

/-- DRV_ROW_OFF (43_display_driver.md R168). -/
def drvRowOff (p : Params) : State → Host.Outcome State Fault Refusal :=
  driverStep 0x88 .rowOff fun t => settle (rowOffBody p t)

/-- DRV_COL_OFF (43_display_driver.md R169). -/
def drvColOff (p : Params) : State → Host.Outcome State Fault Refusal :=
  driverStep 0x89 .colOff fun t => settle (colOffBody p t)

/-- DRV_SNAPSHOT of the block at its default parameters. -/
def execDrvSnapshot (s : State) : Host.Outcome State Fault Refusal := drvSnapshot Config.params s

/-- DRV_COL_ON of the block at its default parameters. -/
def execDrvColOn (s : State) : Host.Outcome State Fault Refusal := drvColOn Config.params s

/-- DRV_ROW of the block at its default parameters. -/
def execDrvRow (s : State) : Host.Outcome State Fault Refusal := drvRow Config.params s

/-- DRV_DWELL: the busy-wait has no duration in the model (43_display_driver.md R167,
92_eei_decisions.md D25; log 18). -/
def execDrvDwell (s : State) : Host.Outcome State Fault Refusal :=
  driverStep 0x87 .dwell (fun t => { t with drvR := 0, drvPhase := .rowOff }) s

/-- DRV_ROW_OFF of the block at its default parameters. -/
def execDrvRowOff (s : State) : Host.Outcome State Fault Refusal := drvRowOff Config.params s

/-- DRV_COL_OFF of the block at its default parameters. -/
def execDrvColOff (s : State) : Host.Outcome State Fault Refusal := drvColOff Config.params s

end Sys2Proof.Machine
end

