-- ==== Sys2Proof/Machine/Font.lean ====
section
/-!
DEFINITION. The font ROM's read port and FONT_LOOKUP (40_font_rom.md).
-/

namespace Sys2Proof.Machine

/-- A width class (00_scope.md R13). -/
inductive WidthClass where
  | w1
  | w2
  | w3
  deriving DecidableEq, Repr

/-- The number of columns of a glyph of the class. -/
def WidthClass.columns : WidthClass → Nat
  | .w1 => 1
  | .w2 => 2
  | .w3 => 3

/-- `RomRead(w, c) = Ww(c)`, a glyph as the list of its columns (40_font_rom.md R100). -/
def romRead (rom : FontRom) (w : WidthClass) (c : Byte) : Option (List ColImage) :=
  match w with
  | .w1 => (rom.w1 c).map Vector.toList
  | .w2 => (rom.w2 c).map Vector.toList
  | .w3 => (rom.w3 c).map Vector.toList

/-- FONT_LOOKUP: the classes in the order 1, 2, 3, the first match wins (40_font_rom.md R102). -/
def fontLookup (rom : FontRom) (c : Byte) : Option (List ColImage) :=
  [WidthClass.w1, .w2, .w3].findSome? fun w => romRead rom w c

/-- `glyph(c)`: the columns of a supported character and none of another (41_image_encoder.md
R120). -/
def glyphColumns (rom : FontRom) (c : Byte) : List ColImage := (fontLookup rom c).getD []

/-- `width(c)` (40_font_rom.md R103). -/
def charWidth (rom : FontRom) (c : Byte) : Nat := (glyphColumns rom c).length

/-- FONT_LOOKUP as an operation: "State written: none", no fault; its result is the value
`fontLookup`, which its caller APPEND_GLYPH uses within the same step (40_font_rom.md R102;
log 14). -/
def execFontLookup (_c : Byte) (s : State) : Host.Outcome State Fault Refusal :=
  takeStep 0x8A (fun _ => true) (fun t => t) s

end Sys2Proof.Machine
end

