-- ==== Sys2Proof/Machine/Encoder.lean ====
section
/-!
DEFINITION. The image encoder: APPEND_GLYPH, DISPLAY_TEXT, DISPLAY_NUMBER and the body
`NumberBody` that COUNT_IRQ also uses (41_image_encoder.md).
-/

namespace Sys2Proof.Machine

/-- APPEND_GLYPH(c): the columns of the glyph, or nothing for an unsupported character, and then
exactly one blank column (41_image_encoder.md R112). -/
def appendGlyph (p : Params) (c : Byte) (s : State) : Flow :=
  (match fontLookup p.font c with
    | some g => pushAll p g s
    | none => .ok s).bind (push p blankColumn)

/-- APPEND_GLYPH of each character, in order. -/
def appendText (p : Params) : List Byte → State → Flow
  | [], s => .ok s
  | c :: cs, s => (appendGlyph p c s).bind (appendText p cs)

/-- The body of DISPLAY_TEXT, after its check (41_image_encoder.md R114). -/
def textBody (p : Params) (text : List Byte) (s : State) : Flow :=
  (appendText p text (beginContent s)).bind (endContent p)

/-- The code of a decimal digit: `0x30 + d` (30_encoding.md R82). -/
def digitCode (d : Nat) : Byte := 0x30 + BitVec.ofNat 8 d

/-- `EmitDigits(n)`: the digits of `n` that come before the last, by recursion, and then the last.
The first argument bounds the recursion depth (41_image_encoder.md R116). -/
def emitDigits (p : Params) : Nat → Nat → State → Flow
  | 0, _, s => .ok s
  | depth + 1, n, s =>
    let r := n % 10
    (if n - r ≠ 0 then emitDigits p depth ((n - r) / 10) s else .ok s).bind
      (appendGlyph p (digitCode r))

/-- The recursion depth of `EmitDigits` on a 32-bit value: at most 10 (41_image_encoder.md R116). -/
def maxDigits : Nat := 10

/-- `NumberBody(n)`: clear once, the digits, the blank frame once (41_image_encoder.md R115). -/
def numberBody (p : Params) (n : Word) (s : State) : Flow :=
  (emitDigits p maxDigits n.toNat (beginContent s)).bind (endContent p)

/-- DISPLAY_TEXT (41_image_encoder.md R114). -/
def displayText (p : Params) (text : List Byte) : State → Host.Outcome State Fault Refusal :=
  hostCommand 0x02 (fun _ => true) (textBody p text)

/-- DISPLAY_NUMBER (41_image_encoder.md R117). -/
def displayNumber (p : Params) (n : Word) : State → Host.Outcome State Fault Refusal :=
  hostCommand 0x03 (fun _ => true) (numberBody p n)

/-- APPEND_GLYPH as an operation of its own: it runs inside its caller's critical section
(30_encoding.md R92, 41_image_encoder.md R112; log 14). -/
def appendGlyphStep (p : Params) (c : Byte) : State → Host.Outcome State Fault Refusal :=
  takeStep 0x8B (fun _ => true) fun t => settle (appendGlyph p c t)

/-- DISPLAY_TEXT of the block at its default parameters. -/
def execDisplayText (text : List Byte) (s : State) : Host.Outcome State Fault Refusal :=
  displayText Config.params text s

/-- DISPLAY_NUMBER of the block at its default parameters. -/
def execDisplayNumber (n : Word) (s : State) : Host.Outcome State Fault Refusal :=
  displayNumber Config.params n s

/-- APPEND_GLYPH of the block at its default parameters. -/
def execAppendGlyph (c : Byte) (s : State) : Host.Outcome State Fault Refusal :=
  appendGlyphStep Config.params c s

end Sys2Proof.Machine
end

