-- ==== Sys2Proof/Machine/Scroll.lean ====
section
/-!
DEFINITION. The scroll timer's event and its handler, the tick (42_scroll.md).
-/

namespace Sys2Proof.Machine

/-- The cursor after step 2 of the tick: 0 when the cursor is unset or at the end, else one further
(42_scroll.md R142). -/
def nextCursor (s : State) : Nat :=
  if !s.curValid || s.curIdx ≥ s.imgLen - 1 then 0 else s.curIdx + 1

/-- The tick's effect on the cursor and the frame; nothing on an empty buffer (42_scroll.md R142). -/
def scrollTick (s : State) : State :=
  if s.imgLen ≠ 0 then
    { s with
      curIdx := nextCursor s
      curValid := true
      frame := shiftIn s.frame (imgAt s (nextCursor s)) }
  else s

/-- SCROLL_EXPIRE: SCR_PEND <- 1 (42_scroll.md R140). -/
def execScrollExpire (s : State) : Host.Outcome State Fault Refusal :=
  takeStep 0x80 (fun t => t.scrEn) (setPending .scroll) s

/-- SCROLL_IRQ: the tick, and then the pending flag is cleared (42_scroll.md R142). -/
def execScrollIrq (s : State) : Host.Outcome State Fault Refusal :=
  takeStep 0x81 (fun t => t.scrPend)
    (atomic fun t => .ok (interruptReturn .scroll (scrollTick t))) s

end Sys2Proof.Machine
end

