-- ==== Sys2Proof/Machine/Ticks.lean ====
section
/-!
DEFINITION. The tick scheduler: INIT, and the countdown timer's start command, sub-tick counter and
handler (44_tick_scheduler.md).
-/

namespace Sys2Proof.Machine

/-- INIT (44_tick_scheduler.md R190). -/
def execInit (s : State) : Host.Outcome State Fault Refusal :=
  hostCommand 0x01 (fun t => !t.initDone)
    (fun t => .ok { t with initDone := true, scrEn := true }) s

/-- The statements of START_COUNTDOWN, after its check (44_tick_scheduler.md R191). -/
def beginCountdown (h : Word) (s : State) : State :=
  if h = 0 then
    { s with cdSub := 0, cdPend := false, cdHours := 0, cdState := .stopped, cdEn := false }
  else
    { s with cdSub := 0, cdPend := false, cdHours := h, cdState := .running, cdEn := true }

/-- START_COUNTDOWN (44_tick_scheduler.md R191). -/
def execStartCountdown (h : Word) (s : State) : Host.Outcome State Fault Refusal :=
  hostCommand 0x04 (fun t => t.initDone && decide (t.cdState = .idle))
    (fun t => .ok (beginCountdown h t)) s

/-- One tick of the sub-tick counter: the TICKS_PER_HOUR-th rolls over and makes the hour event
pending (44_tick_scheduler.md R193). -/
def subtick (p : Params) (s : State) : State :=
  if s.cdSub = p.ticksPerHour - 1 then setPending .countdown { s with cdSub := 0 }
  else { s with cdSub := s.cdSub + 1 }

/-- COUNT_SUBTICK (44_tick_scheduler.md R193). -/
def countSubtick (p : Params) : State → Host.Outcome State Fault Refusal :=
  takeStep 0x82 (fun t => t.cdEn) (subtick p)

/-- COUNT_SUBTICK of the block at its default parameters. -/
def execCountSubtick (s : State) : Host.Outcome State Fault Refusal := countSubtick Config.params s

/-- The hour decrement; on reaching 0 the timer stops and is disabled (44_tick_scheduler.md R194 (b),
(c)). -/
def decrementHours (s : State) : State :=
  if s.cdHours - 1 = 0 then
    { s with cdHours := s.cdHours - 1, cdState := .stopped, cdEn := false }
  else { s with cdHours := s.cdHours - 1 }

/-- The re-encode of the displayed number, `CD_HOURS / HOURS_PER_UNIT` (44_tick_scheduler.md R194). -/
def showHours (p : Params) (s : State) : Flow := numberBody p (s.cdHours / p.hoursPerUnit) s

/-- The statements of COUNT_IRQ; a fault in the re-encode ends the step before CD_PEND is cleared
(44_tick_scheduler.md R194, 90_conflicts.md C4, C10). -/
def countHandlerBody (p : Params) (s : State) : Flow :=
  (if s.cdState = .running then showHours p (decrementHours s) else .ok s).bind
    fun t => .ok (interruptReturn .countdown t)

/-- COUNT_IRQ: one critical section (44_tick_scheduler.md R194). -/
def countIrq (p : Params) : State → Host.Outcome State Fault Refusal :=
  takeStep 0x83 (fun t => t.cdPend) (atomic (countHandlerBody p))

/-- COUNT_IRQ of the block at its default parameters. -/
def execCountIrq (s : State) : Host.Outcome State Fault Refusal := countIrq Config.params s

end Sys2Proof.Machine
end

