-- ==== Sys2Proof/Syntax.lean ====
section
/-!
DEFINITION. The operations of the block: five host commands (30_encoding.md R86) and twelve
internal steps (R92), one constructor per row of spec/opcode_table.json (00_scope.md R2).
-/

namespace Sys2Proof

/-- One operation of the block. A command carries the operands its format gives it
(30_encoding.md R85); an internal step has none, but for the character code `c` of the two
sub-operations (40_font_rom.md R102, 41_image_encoder.md R112). -/
inductive Instr where
  /-- INIT (0x01), format F0: 44_tick_scheduler.md R190. -/
  | init
  /-- DISPLAY_TEXT (0x02), format FT, with `ch[0] .. ch[len-1]`: 41_image_encoder.md R114. -/
  | displayText (text : List Byte)
  /-- DISPLAY_NUMBER (0x03), format FW: 41_image_encoder.md R117. -/
  | displayNumber (n : Word)
  /-- START_COUNTDOWN (0x04), format FW: 44_tick_scheduler.md R191. -/
  | startCountdown (h : Word)
  /-- RUN_DISPLAY_LOOP (0x05), format F0: 43_display_driver.md R163. -/
  | runDisplayLoop
  /-- SCROLL_EXPIRE (0x80): 42_scroll.md R140. -/
  | scrollExpire
  /-- SCROLL_IRQ (0x81): 42_scroll.md R142. -/
  | scrollIrq
  /-- COUNT_SUBTICK (0x82): 44_tick_scheduler.md R193. -/
  | countSubtick
  /-- COUNT_IRQ (0x83): 44_tick_scheduler.md R194. -/
  | countIrq
  /-- DRV_SNAPSHOT (0x84): 43_display_driver.md R164. -/
  | drvSnapshot
  /-- DRV_COL_ON (0x85): 43_display_driver.md R165. -/
  | drvColOn
  /-- DRV_ROW (0x86): 43_display_driver.md R166. -/
  | drvRow
  /-- DRV_DWELL (0x87): 43_display_driver.md R167. -/
  | drvDwell
  /-- DRV_ROW_OFF (0x88): 43_display_driver.md R168. -/
  | drvRowOff
  /-- DRV_COL_OFF (0x89): 43_display_driver.md R169. -/
  | drvColOff
  /-- FONT_LOOKUP (0x8A), a sub-operation of APPEND_GLYPH: 40_font_rom.md R102. -/
  | fontLookup (c : Byte)
  /-- APPEND_GLYPH (0x8B), a sub-operation of the encodes: 41_image_encoder.md R112. -/
  | appendGlyph (c : Byte)
  deriving DecidableEq, Repr

/-- The operation's byte 0: the opcode of a host command (30_encoding.md R86) or the id of an
internal step (R92). -/
def Instr.opcode : Instr → Byte
  | .init => 0x01
  | .displayText _ => 0x02
  | .displayNumber _ => 0x03
  | .startCountdown _ => 0x04
  | .runDisplayLoop => 0x05
  | .scrollExpire => 0x80
  | .scrollIrq => 0x81
  | .countSubtick => 0x82
  | .countIrq => 0x83
  | .drvSnapshot => 0x84
  | .drvColOn => 0x85
  | .drvRow => 0x86
  | .drvDwell => 0x87
  | .drvRowOff => 0x88
  | .drvColOff => 0x89
  | .fontLookup _ => 0x8A
  | .appendGlyph _ => 0x8B

/-- A host command, as against an internal step (30_encoding.md R91). -/
def Instr.isHostCommand : Instr → Bool
  | .init => true
  | .displayText _ => true
  | .displayNumber _ => true
  | .startCountdown _ => true
  | .runDisplayLoop => true
  | .scrollExpire => false
  | .scrollIrq => false
  | .countSubtick => false
  | .countIrq => false
  | .drvSnapshot => false
  | .drvColOn => false
  | .drvRow => false
  | .drvDwell => false
  | .drvRowOff => false
  | .drvColOff => false
  | .fontLookup _ => false
  | .appendGlyph _ => false

end Sys2Proof
end

