-- ==== Sys2Proof/Machine/Dispatch.lean ====
section
/-!
DEFINITION. One arm per operation of the opcode table, each one direct call of its meaning.
-/

namespace Sys2Proof.Machine

def exec (i : Instr) (s : State) : Host.Outcome State Fault Refusal :=
  match i with
  | .init => Sys2Proof.Machine.execInit s
  | .displayText text => Sys2Proof.Machine.execDisplayText text s
  | .displayNumber n => Sys2Proof.Machine.execDisplayNumber n s
  | .startCountdown h => Sys2Proof.Machine.execStartCountdown h s
  | .runDisplayLoop => Sys2Proof.Machine.execRunDisplayLoop s
  | .scrollExpire => Sys2Proof.Machine.execScrollExpire s
  | .scrollIrq => Sys2Proof.Machine.execScrollIrq s
  | .countSubtick => Sys2Proof.Machine.execCountSubtick s
  | .countIrq => Sys2Proof.Machine.execCountIrq s
  | .drvSnapshot => Sys2Proof.Machine.execDrvSnapshot s
  | .drvColOn => Sys2Proof.Machine.execDrvColOn s
  | .drvRow => Sys2Proof.Machine.execDrvRow s
  | .drvDwell => Sys2Proof.Machine.execDrvDwell s
  | .drvRowOff => Sys2Proof.Machine.execDrvRowOff s
  | .drvColOff => Sys2Proof.Machine.execDrvColOff s
  | .fontLookup c => Sys2Proof.Machine.execFontLookup c s
  | .appendGlyph c => Sys2Proof.Machine.execAppendGlyph c s

end Sys2Proof.Machine
end

