-- ==== Sys2Proof/Machine/Block.lean ====
section
/-!
DEFINITION. The operations of a block with any parameters (00_scope.md R8). An operation that reads no
parameter is the same in every block; `exec` is this at `Config.params`.
-/

namespace Sys2Proof.Machine

/-- What an operation does in a block with these parameters (00_scope.md R8). -/
def execWith (p : Params) (i : Instr) (s : State) : Host.Outcome State Fault Refusal :=
  match i with
  | .init => execInit s
  | .displayText text => displayText p text s
  | .displayNumber n => displayNumber p n s
  | .startCountdown h => execStartCountdown h s
  | .runDisplayLoop => execRunDisplayLoop s
  | .scrollExpire => execScrollExpire s
  | .scrollIrq => execScrollIrq s
  | .countSubtick => countSubtick p s
  | .countIrq => countIrq p s
  | .drvSnapshot => drvSnapshot p s
  | .drvColOn => drvColOn p s
  | .drvRow => drvRow p s
  | .drvDwell => execDrvDwell s
  | .drvRowOff => drvRowOff p s
  | .drvColOff => drvColOff p s
  | .fontLookup c => execFontLookup c s
  | .appendGlyph c => appendGlyphStep p c s

end Sys2Proof.Machine
end

