-- ==== Sys2Proof/WellFormed.lean ====
section
/-!
DEFINITION. Which terms of `Instr` a command byte string or a step id can stand for.
-/

namespace Sys2Proof

/-- The one check: `len` of an FT command is a byte, so a text has at most 255 characters
(30_encoding.md R83, R85). Every other operand value is legal (R87). -/
def Instr.wellFormed : Instr → Bool
  | .init => true
  | .displayText text => decide (text.length ≤ 255)
  | .displayNumber _ => true
  | .startCountdown _ => true
  | .runDisplayLoop => true
  | .scrollExpire => true
  | .scrollIrq => true
  | .countSubtick => true
  | .countIrq => true
  | .drvSnapshot => true
  | .drvColOn => true
  | .drvRow => true
  | .drvDwell => true
  | .drvRowOff => true
  | .drvColOff => true
  | .fontLookup _ => true
  | .appendGlyph _ => true

end Sys2Proof
end

