-- ==== Sys2Proof/Decode.lean ====
section
/-!
DEFINITION. The command decoder, total on byte strings (30_encoding.md R89), the decoder of the
internal step ids (R92), and the encoder written from the same tables (R83, R92).
-/

namespace Sys2Proof

/-! ## Operand assembly -/

/-- A 32-bit operand from its four bytes, the first byte least significant
(20_memory.md R62, 30_encoding.md R85). -/
def wordOfBytes (b1 b2 b3 b4 : Byte) : Word := b4 ++ b3 ++ b2 ++ b1

/-- The four bytes of a 32-bit operand, least significant first (20_memory.md R62). -/
def bytesOfWord (w : Word) : List Byte :=
  [w.extractLsb' 0 8, w.extractLsb' 8 8, w.extractLsb' 16 8, w.extractLsb' 24 8]

/-! ## Host commands -/

/-- What a byte string starts with (30_encoding.md R89: every string either starts with a command
of known length, or starts with a reserved opcode, or is too short). -/
inductive Decoded where
  /-- a whole command, and the bytes after it -/
  | command (i : Instr) (rest : List Byte)
  /-- a reserved opcode, 0x00 or 0x06 .. 0xFF, of length 1 (R87), and the bytes after it -/
  | reserved (op : Byte) (rest : List Byte)
  /-- a string shorter than its command: refused at the boundary -/
  | tooShort
  deriving DecidableEq, Repr

/-- Format FW: a 32-bit operand in bytes 1 .. 4 (30_encoding.md R83, R85). -/
def decodeFW (mk : Word → Instr) : List Byte → Decoded
  | b1 :: b2 :: b3 :: b4 :: rest => .command (mk (wordOfBytes b1 b2 b3 b4)) rest
  | _ => .tooShort

/-- The first `n` bytes and the bytes after them; none where there are fewer. -/
def splitBytes : Nat → List Byte → Option (List Byte × List Byte)
  | 0, bs => some ([], bs)
  | _ + 1, [] => none
  | n + 1, b :: bs => (splitBytes n bs).map fun r => (b :: r.1, r.2)

/-- Format FT: a length byte and that many characters (30_encoding.md R83, R85). -/
def decodeFT : List Byte → Decoded
  | [] => .tooShort
  | len :: rest =>
    match splitBytes len.toNat rest with
    | some (text, after) => .command (.displayText text) after
    | none => .tooShort

/-- The host command at the front of a byte string (30_encoding.md R83, R86, R87, R89). -/
def decodeHost : List Byte → Decoded
  | [] => .tooShort
  | op :: rest =>
    if op = 0x01 then .command .init rest
    else if op = 0x02 then decodeFT rest
    else if op = 0x03 then decodeFW .displayNumber rest
    else if op = 0x04 then decodeFW .startCountdown rest
    else if op = 0x05 then .command .runDisplayLoop rest
    else .reserved op rest

/-- The length in bytes of the command a string starts with, where byte 0 and byte 1 decide it
(30_encoding.md R89): none for an empty string and for an FT command without its length byte. -/
def commandLength : List Byte → Option Nat
  | [] => none
  | op :: rest =>
    if op = 0x02 then rest.head?.map (fun len => 2 + len.toNat)
    else if op = 0x03 ∨ op = 0x04 then some 5
    else some 1

/-! ## Internal step ids -/

/-- The operand byte of a sub-operation's token. DESIGN CHOICE, safe (log 15): the spec gives an
internal step an id and no operand bytes; the model's token for FONT_LOOKUP and APPEND_GLYPH is the
id and then the character code. -/
def decodeSub (mk : Byte → Instr) : List Byte → Option (Instr × List Byte)
  | c :: rest => some (mk c, rest)
  | [] => none

/-- The internal step an id names (30_encoding.md R92). The ids are never transmitted: a host
command byte of the same value is reserved (R91), and `decodeHost` says so. -/
def decodeStepId : List Byte → Option (Instr × List Byte)
  | [] => none
  | id :: rest =>
    if id = 0x80 then some (.scrollExpire, rest)
    else if id = 0x81 then some (.scrollIrq, rest)
    else if id = 0x82 then some (.countSubtick, rest)
    else if id = 0x83 then some (.countIrq, rest)
    else if id = 0x84 then some (.drvSnapshot, rest)
    else if id = 0x85 then some (.drvColOn, rest)
    else if id = 0x86 then some (.drvRow, rest)
    else if id = 0x87 then some (.drvDwell, rest)
    else if id = 0x88 then some (.drvRowOff, rest)
    else if id = 0x89 then some (.drvColOff, rest)
    else if id = 0x8A then decodeSub .fontLookup rest
    else if id = 0x8B then decodeSub .appendGlyph rest
    else none

/-- Any operation of the opcode table from its bytes: a host command, or else an internal step's
token. Only the host's command port reads a stream, and it uses `decodeHost` alone. -/
def decodeOperation (bs : List Byte) : Option (Instr × List Byte) :=
  match decodeHost bs with
  | .command i rest => some (i, rest)
  | .reserved _ _ => decodeStepId bs
  | .tooShort => none

/-! ## The encoder -/

/-- The bytes of an operation: 30_encoding.md R83 for a host command; the step id of R92 for an
internal step, with the character code after it for the two sub-operations (log 15). -/
def encode : Instr → List Byte
  | .init => [0x01]
  | .displayText text => 0x02 :: BitVec.ofNat 8 text.length :: text
  | .displayNumber n => 0x03 :: bytesOfWord n
  | .startCountdown h => 0x04 :: bytesOfWord h
  | .runDisplayLoop => [0x05]
  | .scrollExpire => [0x80]
  | .scrollIrq => [0x81]
  | .countSubtick => [0x82]
  | .countIrq => [0x83]
  | .drvSnapshot => [0x84]
  | .drvColOn => [0x85]
  | .drvRow => [0x86]
  | .drvDwell => [0x87]
  | .drvRowOff => [0x88]
  | .drvColOff => [0x89]
  | .fontLookup c => [0x8A, c]
  | .appendGlyph c => [0x8B, c]

/-! ## A word of the opcode table -/

/-- The longest operation: an FT command with 255 characters (30_encoding.md R83). -/
def longestLength : Nat := 257

/-- The bytes of an instruction whose bits are `w`: bits 7..0 are byte 0, bits 15..8 byte 1, and so
on; the bits from `nbits` up are 0. -/
def tableBytes (nbits w : Nat) : List Byte :=
  (List.range longestLength).map fun k =>
    if 8 * k < nbits then BitVec.ofNat 8 (w >>> (8 * k)) else 0

/-- The instruction read from the first `nbits` bits of a table row's word. -/
def decodeTableWord (nbits w : Nat) : Option Instr :=
  (decodeOperation (tableBytes nbits w)).map Prod.fst

end Sys2Proof
end

