-- ==== Sys2Proof/Machine/Schedule.lean ====
section
/-!
DEFINITION. Which agents have an enabled step, which of them goes next, and the placing of one
operation as the next step (20_memory.md R69).
-/

namespace Sys2Proof.Machine

/-! ## Enabled steps -/

/-- The host port has a step when its bytes start with a whole command or a reserved opcode; on a
string too short for its command the host is stuck (30_encoding.md R89). -/
def hostReady (bytes : List Byte) : Bool := decide (decodeHost bytes ≠ .tooShort)

/-- The step of a driver phase (43_display_driver.md R162). -/
def phaseStep : DrvPhase → Option Instr
  | .off => none
  | .snap => some .drvSnapshot
  | .colOn => some .drvColOn
  | .row => some .drvRow
  | .dwell => some .drvDwell
  | .rowOff => some .drvRowOff
  | .colOff => some .drvColOff

/-- The enabled steps of 20_memory.md R69; none at all in a faulted block. -/
def enabled (c : Choice) (s : State) : Bool :=
  decide (s.faultCode = .none) &&
    match c with
    | .host => hostReady s.hostQueue
    | .scrollTimer => s.scrEn
    | .countTimer => s.cdEn
    | .scrollHandler => s.scrPend
    | .countHandler => s.cdPend
    | .driver => decide (s.drvPhase ≠ .off)

/-! ## The choice of the next agent -/

/-- The six choices in the order of 20_memory.md R69, where the free value's number and the search
for an enabled agent count them. -/
def choiceOrder : List Choice :=
  [.host, .scrollTimer, .countTimer, .scrollHandler, .countHandler, .driver]

/-- A choice's place in `choiceOrder`. -/
def Choice.index : Choice → Nat
  | .host => 0
  | .scrollTimer => 1
  | .countTimer => 2
  | .scrollHandler => 3
  | .countHandler => 4
  | .driver => 5

/-- The choice a number stands for. -/
def Choice.ofIndex (i : Fin 6) : Choice := choiceOrder[i.val]'(by simp [choiceOrder])

/-- The choice drawn for this step: the script's, or else a free value (20_memory.md R69; log 1). -/
def drawnChoice (s : State) : Choice :=
  match s.sched with
  | c :: _ => c
  | [] => Choice.ofIndex (Config.freeChoice s.schedDraws)

/-- The draw is used up. -/
def consumeChoice (s : State) : State :=
  match s.sched with
  | _ :: cs => { s with sched := cs }
  | [] => { s with schedDraws := s.schedDraws + 1 }

/-- The six choices, the given one first and the others in cyclic order after it. -/
def choicesFrom (c : Choice) : List Choice :=
  choiceOrder.drop c.index ++ choiceOrder.take c.index

/-- The agent that takes the next step: the drawn one, or, where it has no enabled step, the next
one that has. Every enabled agent can be drawn, so every interleaving of 20_memory.md R68 is a run.
DESIGN CHOICE, safe (log 2). -/
def nextAgent (s : State) : Option Choice :=
  (choicesFrom (drawnChoice s)).find? fun c => enabled c s

/-! ## Placing an operation as the next step -/

/-- The bytes of one command at the front of the host's stream, with the host chosen next. -/
def placeCommand (bytes : List Byte) (s : State) : State :=
  { s with hostQueue := bytes ++ s.hostQueue, sched := .host :: s.sched }

/-- What makes the very next step of `s` run `i`: for a host command its bytes in the stream; for an
internal step its agent's turn and its enabling condition (its timer enabled, its flag pending, its
phase reached); for a sub-operation, which never runs as a step of its own (30_encoding.md R92), the
command `02 01 c`, whose step runs it on that character. A recorded fault is not cleared
(log 16). -/
def placeStep (i : Instr) (s : State) : State :=
  match i with
  | .init => placeCommand (encode .init) s
  | .displayText text => placeCommand (encode (.displayText text)) s
  | .displayNumber n => placeCommand (encode (.displayNumber n)) s
  | .startCountdown h => placeCommand (encode (.startCountdown h)) s
  | .runDisplayLoop => placeCommand (encode .runDisplayLoop) s
  | .scrollExpire => { s with scrEn := true, sched := .scrollTimer :: s.sched }
  | .scrollIrq => { s with scrPend := true, sched := .scrollHandler :: s.sched }
  | .countSubtick => { s with cdEn := true, sched := .countTimer :: s.sched }
  | .countIrq => { s with cdPend := true, sched := .countHandler :: s.sched }
  | .drvSnapshot => { s with drvPhase := .snap, sched := .driver :: s.sched }
  | .drvColOn => { s with drvPhase := .colOn, sched := .driver :: s.sched }
  | .drvRow => { s with drvPhase := .row, sched := .driver :: s.sched }
  | .drvDwell => { s with drvPhase := .dwell, sched := .driver :: s.sched }
  | .drvRowOff => { s with drvPhase := .rowOff, sched := .driver :: s.sched }
  | .drvColOff => { s with drvPhase := .colOff, sched := .driver :: s.sched }
  | .fontLookup c => placeCommand (encode (.displayText [c])) s
  | .appendGlyph c => placeCommand (encode (.displayText [c])) s

/-- The operation whose first `nbits` bits are `w`, placed as the next step; a byte that no operation
of the table has stands at the front of the host's stream as the command it is. -/
def placeTableWord (nbits w : Nat) (s : State) : State :=
  match decodeTableWord nbits w with
  | some i => placeStep i s
  | none => placeCommand [BitVec.ofNat 8 w] s

end Sys2Proof.Machine
end

