-- ==== Sys2Proof/Machine/Agents.lean ====
section
/-!
DEFINITION. One step of a named agent (10_state.md R20), the block's transition relation
(20_memory.md R68, R69), and runs along a list of agents: of the block at its default parameters, whose
operations are `exec`, and of a block with any parameters, whose operations are `execWith p`.
-/

namespace Sys2Proof.Machine

/-! ## The agents of a block whose operations are given -/

/-- What each operation does in some block. -/
abbrev Operations := Instr → State → Host.Outcome State Fault Refusal

/-- The host port's step: the whole command at the front of the stream is consumed and executed, or
a reserved opcode raises ILLEGAL_COMMAND (30_encoding.md R84, R87, R89). -/
def hostStep (run : Operations) (s : State) : Host.Outcome State Fault Refusal :=
  match decodeHost s.hostQueue with
  | .command i rest => run i { s with hostQueue := rest }
  | .reserved op rest => illegalCommand op { s with hostQueue := rest }
  | .tooShort => .refused .truncatedCommand

/-- The driver's step: the one its phase names, and none in phase OFF, where the step that a run of the
loop would begin with is not enabled (43_display_driver.md R162). -/
def driverTurn (run : Operations) (s : State) : Host.Outcome State Fault Refusal :=
  match phaseStep s.drvPhase with
  | some i => run i s
  | none => .fault (.notEnabled 0x84)

/-- The step of an agent of a block that runs (20_memory.md R69). -/
def agentStep (run : Operations) (c : Choice) (s : State) : Host.Outcome State Fault Refusal :=
  match c with
  | .host => hostStep run s
  | .scrollTimer => run .scrollExpire s
  | .countTimer => run .countSubtick s
  | .scrollHandler => run .scrollIrq s
  | .countHandler => run .countIrq s
  | .driver => driverTurn run s

/-- The step the chosen agent takes; none in a faulted block (20_memory.md R69, 60_exceptions.md
R221). -/
def stepBy (run : Operations) (c : Choice) (s : State) : Host.Outcome State Fault Refusal :=
  if s.faultCode ≠ .none then .fault (.halted s.faultCode s.faultInfo) else agentStep run c s

/-- The steps of a list of agents, one after another; it stops where a step gives no next state. -/
def runBy (run : Operations) : List Choice → State → Host.Outcome State Fault Refusal
  | [], s => .next s
  | c :: cs, s =>
    match stepBy run c s with
    | .next t => runBy run cs t
    | .fault r => .fault r
    | .refused r => .refused r

/-- One step of the block: none in a faulted block; else the step of the agent that goes next, or a
stop when no agent has one (20_memory.md R69; 60_exceptions.md R221). -/
def blockStep (run : Operations) (s : State) : Host.Outcome State Fault Refusal :=
  if s.faultCode ≠ .none then .fault (.halted s.faultCode s.faultInfo)
  else
    match nextAgent s with
    | some c => stepBy run c (consumeChoice s)
    | none => if s.hostQueue = [] then .fault .idle else .refused .truncatedCommand

/-- `tick` of 95_test_vectors.md: SCROLL_EXPIRE immediately followed by SCROLL_IRQ, `k` times. -/
def ticks : Nat → List Choice
  | 0 => []
  | k + 1 => .scrollTimer :: .scrollHandler :: ticks k

/-! ## The block at its default parameters -/

/-- The step the chosen agent takes (20_memory.md R69). -/
def stepAs (c : Choice) (s : State) : Host.Outcome State Fault Refusal := stepBy exec c s

/-- The transition relation: any agent with an enabled step may take it (20_memory.md R68, R69). -/
def Steps (s s' : State) : Prop := ∃ c, enabled c s = true ∧ stepAs c s = .next s'

/-- The steps of a list of agents, one after another. -/
def runAs (cs : List Choice) (s : State) : Host.Outcome State Fault Refusal := runBy exec cs s

/-! ## A block with any parameters (00_scope.md R8) -/

/-- The step the chosen agent takes in a block with these parameters. -/
def stepAsWith (p : Params) (c : Choice) (s : State) : Host.Outcome State Fault Refusal :=
  stepBy (execWith p) c s

/-- The transition relation of a block with these parameters. -/
def StepsWith (p : Params) (s s' : State) : Prop :=
  ∃ c, enabled c s = true ∧ stepAsWith p c s = .next s'

/-- The steps of a list of agents in a block with these parameters. -/
def runAsWith (p : Params) (cs : List Choice) (s : State) : Host.Outcome State Fault Refusal :=
  runBy (execWith p) cs s

/-- One atomic step of a block with these parameters (20_memory.md R64, R68). -/
def stepWith (p : Params) (s : State) : Host.Outcome State Fault Refusal := blockStep (execWith p) s

end Sys2Proof.Machine
end

