-- ==== Sys2Proof/Machine/Step.lean ====
section
/-!
DEFINITION. The machine's step, and the placing of an opcode-table word as the next operation.
-/

namespace Sys2Proof.Machine

/-- One atomic step of the block at its default parameters (20_memory.md R64, R68; `stepWith` is that
of a block with any parameters). -/
def step (s : State) : Host.Outcome State Fault Refusal := blockStep exec s

/-- `s` with the operation whose table word is `w` chosen and enabled as the very next step
(log 16). -/
def State.withFetchWord (s : State) (nbits w : Nat) : State := placeTableWord nbits w s

end Sys2Proof.Machine
end

