-- ==== Sys2Proof/Machine/Asm.lean ====
section
/-!
DEFINITION. The assembler syntax of host commands (30_encoding.md R93): one command a line, and the
pseudo-instructions CLEAR and DAYS. Source text is read as a list of character codes.
-/

namespace Sys2Proof.Machine

/-- A line of a program: a command or a pseudo-instruction with its operand (30_encoding.md R93). -/
inductive AsmLine where
  | init
  | text (bytes : List Byte)
  | number (n : Nat)
  | countdown (h : Nat)
  | run
  /-- pseudo-instruction: `TEXT ""` -/
  | clear
  /-- pseudo-instruction: `NUMBER (h / 24)` -/
  | days (h : Nat)
  deriving DecidableEq, Repr

/-- An operand that fits 32 bits (30_encoding.md R93). -/
def asmWord (n : Nat) : Option Word := if n < 2 ^ 32 then some (BitVec.ofNat 32 n) else none

/-- The command a line stands for, where its operands are in range (30_encoding.md R93); the range of DAYS
is that of the NUMBER it stands for (DEDUCED, safe: log 22). -/
def AsmLine.command : AsmLine → Option Instr
  | .init => some .init
  | .text bytes => if bytes.length ≤ 255 then some (.displayText bytes) else none
  | .number n => (asmWord n).map .displayNumber
  | .countdown h => (asmWord h).map .startCountdown
  | .run => some .runDisplayLoop
  | .clear => some (.displayText [])
  | .days h => (asmWord (h / 24)).map .displayNumber

/-- The bytes a line assembles to. -/
def assembleLine (l : AsmLine) : Option (List Byte) := l.command.map encode

/-- The bytes of a program, line after line; none where a line has an operand out of range. -/
def assemble : List AsmLine → Option (List Byte)
  | [] => some []
  | l :: ls =>
    match assembleLine l, assemble ls with
    | some bs, some rest => some (bs ++ rest)
    | _, _ => none

/-! ## Reading a line of source text -/

/-- The value of a digit character in the base, where it is one; upper and lower case hexadecimal
digits are read alike (DESIGN CHOICE, safe: log 22). -/
def digitValue (base c : Nat) : Option Nat :=
  let d := if 0x30 ≤ c ∧ c ≤ 0x39 then c - 0x30
    else if 0x41 ≤ c ∧ c ≤ 0x46 then c - 0x41 + 10
    else if 0x61 ≤ c ∧ c ≤ 0x66 then c - 0x61 + 10
    else base
  if d < base then some d else none

/-- The digits at the front of the text, added to the value read so far, and the text after them. -/
def readDigits (base : Nat) : Nat → List Nat → Nat × List Nat
  | acc, [] => (acc, [])
  | acc, c :: cs =>
    match digitValue base c with
    | some d => readDigits base (acc * base + d) cs
    | none => (acc, c :: cs)

/-- An operand in decimal or `0x` hexadecimal, and the text after it (30_encoding.md R93). Leading zeros
are read (DESIGN CHOICE, safe: log 22). -/
def readNumber : List Nat → Option (Nat × List Nat)
  | 0x30 :: 0x78 :: c :: cs => (digitValue 16 c).map fun d => readDigits 16 d cs
  | c :: cs => (digitValue 10 c).map fun d => readDigits 10 d cs
  | [] => none

/-- The text without its leading blanks and tabs, a tab being read as a blank (DESIGN CHOICE, safe:
log 22). -/
def skipBlanks : List Nat → List Nat
  | c :: cs => if c = 0x20 ∨ c = 0x09 then skipBlanks cs else c :: cs
  | [] => []

/-- Nothing more on the line, or a comment from `;` on, with or without a blank before it (DESIGN
CHOICE, safe: log 22). -/
def lineEnds (cs : List Nat) : Bool :=
  match skipBlanks cs with
  | [] => true
  | c :: _ => c == 0x3B

/-- A quoted string after its opening quote: printable ASCII other than the quote and the backslash,
and any byte as `\xHH` (30_encoding.md R93). -/
def readString : List Nat → Option (List Byte × List Nat)
  | 0x22 :: cs => some ([], cs)
  | 0x5C :: 0x78 :: h :: l :: cs =>
    match digitValue 16 h, digitValue 16 l, readString cs with
    | some a, some b, some (bs, rest) => some (BitVec.ofNat 8 (16 * a + b) :: bs, rest)
    | _, _, _ => none
  | c :: cs =>
    if 0x20 ≤ c ∧ c ≤ 0x7E ∧ c ≠ 0x5C then
      (readString cs).map fun r => (BitVec.ofNat 8 c :: r.1, r.2)
    else none
  | [] => none

/-- Byte values separated by commas (30_encoding.md R93); the first argument bounds their number by the
text's length. Any number of blanks, none included, may stand before and after a comma (DESIGN CHOICE,
safe: log 22). -/
def readBytes : Nat → List Nat → Option (List Byte × List Nat)
  | 0, _ => none
  | k + 1, cs =>
    match readNumber (skipBlanks cs) with
    | some (n, rest) =>
      if n ≤ 255 then
        match skipBlanks rest with
        | 0x2C :: more => (readBytes k more).map fun r => (BitVec.ofNat 8 n :: r.1, r.2)
        | tail => some ([BitVec.ofNat 8 n], tail)
      else none
    | none => none

/-- The line when nothing more stands on it. -/
def endLine (l : AsmLine) (cs : List Nat) : Option AsmLine := if lineEnds cs then some l else none

/-- A command with a number after its mnemonic. -/
def numberLine (mk : Nat → AsmLine) (cs : List Nat) : Option AsmLine :=
  (readNumber (skipBlanks cs)).bind fun r => endLine (mk r.1) r.2

/-- The operand of TEXT: a quoted string or byte values (30_encoding.md R93). -/
def textLine (cs : List Nat) : Option AsmLine :=
  match skipBlanks cs with
  | 0x22 :: more => (readString more).bind fun r => endLine (.text r.1) r.2
  | more => (readBytes (more.length + 1) more).bind fun r => endLine (.text r.1) r.2

/-- The upper-case word at the front of the text and the text after it. -/
def readMnemonic : List Nat → List Nat × List Nat
  | c :: cs =>
    if 0x41 ≤ c ∧ c ≤ 0x5A then
      let r := readMnemonic cs
      (c :: r.1, r.2)
    else ([], c :: cs)
  | [] => ([], [])

/-- A line that holds a command. The mnemonics' codes: INIT, TEXT, NUMBER, COUNTDOWN, RUN, CLEAR,
DAYS (30_encoding.md R93). A blank must stand between a mnemonic and a number, and none need stand
between TEXT and its operand, so that `TEXT49` and `TEXT"a"` are read (DESIGN CHOICE, safe: log 22). -/
def parseCommand (cs : List Nat) : Option AsmLine :=
  let r := readMnemonic (skipBlanks cs)
  if r.1 = [0x49, 0x4E, 0x49, 0x54] then endLine .init r.2
  else if r.1 = [0x54, 0x45, 0x58, 0x54] then textLine r.2
  else if r.1 = [0x52, 0x55, 0x4E] then endLine .run r.2
  else if r.1 = [0x43, 0x4C, 0x45, 0x41, 0x52] then endLine .clear r.2
  else if skipBlanks r.2 = r.2 then none
  else if r.1 = [0x4E, 0x55, 0x4D, 0x42, 0x45, 0x52] then numberLine .number r.2
  else if r.1 = [0x43, 0x4F, 0x55, 0x4E, 0x54, 0x44, 0x4F, 0x57, 0x4E] then
    numberLine .countdown r.2
  else if r.1 = [0x44, 0x41, 0x59, 0x53] then numberLine .days r.2
  else none

/-- A program from its lines of source text: lines with only blanks or a comment hold no command (DESIGN
CHOICE, safe: log 22). -/
def parseProgram : List (List Nat) → Option (List AsmLine)
  | [] => some []
  | line :: lines =>
    if lineEnds line then parseProgram lines
    else
      match parseCommand line, parseProgram lines with
      | some l, some ls => some (l :: ls)
      | _, _ => none

end Sys2Proof.Machine
end

