-- ==== Sys2Proof/Safety.lean ====
section
/-!
DEFINITION. What the statements are about: the invariants of 10_state.md R44, the preconditions of
30_encoding.md R88, the content an encode should produce (41_image_encoder.md R120), and runs with
weak fairness (70_reset_and_hazards.md R271).
-/

namespace Sys2Proof.Machine

/-! ## Invariants -/

/-- The storage form of the image buffer: exactly CAP cells, at most CAP of them content
(10_state.md R25). -/
def State.storageWfFor (p : Params) (s : State) : Prop := s.imgBuf.length = p.cap ∧ s.imgLen ≤ p.cap

/-- The storage form in the block at its default parameters. -/
abbrev State.storageWf (s : State) : Prop := s.storageWfFor Config.params

/-- The phases in which a column may be HIGH (43_display_driver.md R171). -/
def DrvPhase.columnDriven : DrvPhase → Bool
  | .off => false
  | .snap => false
  | .colOn => false
  | .row => true
  | .dwell => true
  | .rowOff => true
  | .colOff => true

/-- Row `r` shows the snapshot's bit for the driven column: LOW exactly when it is lit
(43_display_driver.md R166). -/
def rowShows (s : State) (r : Fin 9) : Prop :=
  s.rowOut[r] = if physBit s r s.drvC then .low else .high

/-- Row `r` is at its inactive level HIGH (10_state.md R28). -/
def rowInactive (s : State) (r : Fin 9) : Prop := s.rowOut[r] = .high

/-- How far the row writes of the current column have come (43_display_driver.md R166, R168). -/
def rowsInPhase (s : State) (r : Fin 9) : Prop :=
  match s.drvPhase with
  | .off => rowInactive s r
  | .snap => rowInactive s r
  | .colOn => rowInactive s r
  | .row => if r < s.drvR then rowShows s r else rowInactive s r
  | .dwell => rowShows s r
  | .rowOff => if r < s.drvR then rowInactive s r else rowShows s r
  | .colOff => rowInactive s r

/-- The invariants of the block (10_state.md R44, R30, R36, R40; 43_display_driver.md R171, R173;
44_tick_scheduler.md R195), for a block with these parameters. The one that a fault may break has
FAULT_CODE = 0 as a premise (90_conflicts.md C10). -/
structure InvWith (p : Params) (s : State) : Prop where
  storage : s.storageWfFor p
  cursor : s.curValid = true → s.curIdx < s.imgLen
  columnHigh : ∀ c : Fin 3, s.colOut[c] = .high ↔ c = s.drvC ∧ s.drvPhase.columnDriven = true
  rows : ∀ r : Fin 9, rowsInPhase s r
  snapshot : ∃ f, s.drvPhys = transform p.posMap f
  idle : s.cdState = .idle → s.cdEn = false
  running : s.cdState = .running → s.cdEn = true ∧ s.cdHours ≠ 0
  stopped : s.cdState = .stopped → s.cdEn = false ∧ s.cdHours = 0
  pending : s.faultCode = .none → s.cdPend = true → s.cdState = .running
  subticks : s.cdSub.toNat < p.ticksPerHour.toNat
  started : s.cdState ≠ .idle → s.initDone = true
  loop : s.loopRun = true → s.initDone = true
  scrollTimer : s.scrEn = s.initDone
  scrollPending : s.scrPend = true → s.scrEn = true
  driverOff : s.drvPhase = .off ↔ s.loopRun = false
  unmasked : s.imask = false

/-- The invariants of the block at its default parameters. -/
abbrev Inv (s : State) : Prop := InvWith Config.params s

/-- A safe state: the invariants hold and no fault is recorded; "a faulted state is not a successful
end of anything" (60_exceptions.md R221). -/
def SafeWith (p : Params) (s : State) : Prop := InvWith p s ∧ s.faultCode = .none

/-- A safe state of the block at its default parameters. -/
abbrev Safe (s : State) : Prop := SafeWith Config.params s

/-! ## Preconditions of the host commands -/

/-- The state precondition of an operation that is a host command (30_encoding.md R88); of an internal
step nothing is asked by it. -/
def hostPrecondition (i : Instr) (s : State) : Prop :=
  s.loopRun = false ∧
    match i with
    | .init => s.initDone = false
    | .displayText _ => True
    | .displayNumber _ => True
    | .startCountdown _ => s.initDone = true ∧ s.cdState = .idle
    | .runDisplayLoop => s.initDone = true
    | .scrollExpire => True
    | .scrollIrq => True
    | .countSubtick => True
    | .countIrq => True
    | .drvSnapshot => True
    | .drvColOn => True
    | .drvRow => True
    | .drvDwell => True
    | .drvRowOff => True
    | .drvColOff => True
    | .fontLookup _ => True
    | .appendGlyph _ => True

/-- The state after a raised fault: nothing but FAULT_CODE, FAULT_INFO and the end of the critical
section (60_exceptions.md R221). -/
def faulted (s : State) (code : FaultCode) (info : Word) : State :=
  { s with faultCode := code, faultInfo := info, imask := false }

/-! ## The content of an encode -/

/-- The columns of a text without the closing blank frame: each character's glyph and one blank
column (41_image_encoder.md R120). -/
def textColumns (rom : FontRom) (text : List Byte) : List ColImage :=
  text.flatMap fun c => glyphColumns rom c ++ [blankColumn]

/-- The content of a text: its columns and 5 blank columns (41_image_encoder.md R120). -/
def textContent (rom : FontRom) (text : List Byte) : List ColImage :=
  textColumns rom text ++ List.replicate 5 blankColumn

/-- The decimal digit characters of `n`, most significant first (41_image_encoder.md R120,
30_encoding.md R82). -/
def decimalText (n : Nat) : List Byte :=
  if n = 0 then [0x30] else (Nat.digits 10 n).reverse.map fun d => 0x30 + BitVec.ofNat 8 d

/-- The buffer cells and length after an encode of `cols` that fits; the cells beyond keep what they
held. -/
def withContent (s : State) (cols : List ColImage) : State :=
  { s with
    imgBuf := cols ++ s.imgBuf.drop cols.length
    imgLen := cols.length
    curValid := false }

/-! ## Runs -/

/-- An infinite execution of a block with these parameters: at each state some agent with an enabled
step takes it (20_memory.md R68, R69). -/
structure ExecutionWith (p : Params) where
  state : Nat → State
  agent : Nat → Choice
  isStep : ∀ n, enabled (agent n) (state n) = true ∧
    stepAsWith p (agent n) (state n) = .next (state (n + 1))

/-- An infinite execution of the block at its default parameters. -/
abbrev Execution := ExecutionWith Config.params

/-- Weak fairness: an agent whose step stays enabled takes it eventually
(70_reset_and_hazards.md R271). DESIGN CHOICE (log 19): it is asked of each of the six enabled steps of
20_memory.md R69, so of SCROLL_IRQ and of COUNT_IRQ, although 10_state.md R20 counts the two handlers
as one of five agents and 92_eei_decisions.md D25 asks fairness "on every agent"; a stronger premise,
unsafe for a statement about the progress of one handler beside the other. -/
def ExecutionWith.WeaklyFair {p : Params} (e : ExecutionWith p) : Prop :=
  ∀ c n, ∃ m, n ≤ m ∧ (enabled c (e.state m) = false ∨ e.agent m = c)

end Sys2Proof.Machine
end

