-- ==== Sys2Proof/Certificates/Slice0/Obligations.lean ====
section
/-!
DEFINITION. The statements for the provers: what each operation and the whole block do, from the
numbered rules of spec/.
-/

open Sys2Proof Sys2Proof.Machine

/-! ## Encoding -/

/-- 30_encoding.md R83, R85, R86: the bytes of a well-formed host command decode to it, whatever
follows them. -/
def Obligations.DecodeHostOfEncode : Prop :=
  ∀ (i : Instr) (rest : List Byte), i.wellFormed = true → i.isHostCommand = true →
    decodeHost (encode i ++ rest) = .command i rest

/-- 30_encoding.md R91, R92: an internal step's token names it, and its id is no command opcode: the
host's decoder finds a reserved opcode there. The ids lie in 0x80 .. 0x8B. The character byte after the id of a sub-operation is
the model's own token (log 15). -/
def Obligations.InternalStepIdsAreNoCommands : Prop :=
  ∀ (i : Instr) (rest : List Byte), i.isHostCommand = false →
    0x80 ≤ i.opcode.toNat ∧ i.opcode.toNat ≤ 0x8B ∧
      decodeStepId (encode i ++ rest) = some (i, rest) ∧
      ∃ tail, decodeHost (encode i ++ rest) = .reserved i.opcode tail

/-- 30_encoding.md R83, R89, R90: a decoded command is well-formed, is a host command, and its
encoding is exactly the bytes that were read, so that each command has one form. -/
def Obligations.DecodedCommandIsItsEncoding : Prop :=
  ∀ (bs : List Byte) (i : Instr) (rest : List Byte), decodeHost bs = .command i rest →
    i.wellFormed = true ∧ i.isHostCommand = true ∧ bs = encode i ++ rest

/-- 30_encoding.md R89: byte 0, and byte 1 of an FT command, decide the length; a string shorter than
its command is refused, is never executed, and leaves the host without a step. -/
def Obligations.CommandLengthIsDecidedByItsFirstBytes : Prop :=
  (∀ (op : Byte) (rest : List Byte),
    ((op = 0x01 ∨ op = 0x05) → ∃ i, decodeHost (op :: rest) = .command i rest) ∧
    ((op = 0x03 ∨ op = 0x04) →
      (rest.length < 4 → decodeHost (op :: rest) = .tooShort) ∧
      (4 ≤ rest.length → ∃ i, decodeHost (op :: rest) = .command i (rest.drop 4))) ∧
    (op = 0x02 →
      (rest = [] → decodeHost (op :: rest) = .tooShort) ∧
      ∀ len tail, rest = len :: tail →
        (tail.length < len.toNat → decodeHost (op :: rest) = .tooShort) ∧
        (len.toNat ≤ tail.length →
          ∃ i, decodeHost (op :: rest) = .command i (tail.drop len.toNat))) ∧
    ((op = 0x00 ∨ 0x06 ≤ op.toNat) → decodeHost (op :: rest) = .reserved op rest)) ∧
  decodeHost [] = .tooShort ∧
  ∀ s : State, decodeHost s.hostQueue = .tooShort →
    enabled .host s = false ∧ ∀ t, stepAs .host s ≠ .next t

/-- 20_memory.md R62, 30_encoding.md R85: the operand of an FW command is little-endian and unsigned.
-/
def Obligations.OperandsAreLittleEndian : Prop :=
  ∀ (b1 b2 b3 b4 : Byte) (rest : List Byte), ∃ v : Word,
    v.toNat = b1.toNat + 256 * b2.toNat + 65536 * b3.toNat + 16777216 * b4.toNat ∧
    decodeHost (0x03 :: b1 :: b2 :: b3 :: b4 :: rest) = .command (.displayNumber v) rest ∧
    decodeHost (0x04 :: b1 :: b2 :: b3 :: b4 :: rest) = .command (.startCountdown v) rest

/-- Sanity: nine words decode to the commands and steps of 95_test_vectors.md and 30_encoding.md R92,
two strings are too short, one byte is a reserved opcode. The last word's character 0 is the model's own
token for the operand of a sub-operation, which the spec gives no bytes (log 15). -/
def Obligations.SpecWordsDecode : Prop :=
  decodeHost [0x01] = .command .init [] ∧
  decodeHost [0x02, 0x01, 0x31] = .command (.displayText [0x31]) [] ∧
  decodeHost [0x02, 0x03, 0x31, 0x31] = .tooShort ∧
  decodeHost [0x03, 0x1C, 0x00, 0x00, 0x00] = .command (.displayNumber 28) [] ∧
  decodeHost [0x03, 0x1C, 0x00, 0x00] = .tooShort ∧
  decodeHost [0x04, 0xA2, 0x02, 0x00, 0x00] = .command (.startCountdown 674) [] ∧
  decodeHost [0x05] = .command .runDisplayLoop [] ∧
  decodeHost [0x80] = .reserved 0x80 [] ∧
  decodeTableWord 8 0x80 = some .scrollExpire ∧
  decodeTableWord 8 0x83 = some .countIrq ∧
  decodeTableWord 8 0x84 = some .drvSnapshot ∧
  decodeTableWord 8 0x8A = some (.fontLookup 0)

/-- 30_encoding.md R93: the bytes of each form of line, with operands little-endian; CLEAR is `TEXT ""`,
DAYS h is NUMBER (h / 24), an operand out of range assembles to nothing, and a line's bytes decode to
its command. -/
def Obligations.AssembledLinesDecode : Prop :=
  assembleLine .init = some [0x01] ∧
  (∀ bs : List Byte, bs.length ≤ 255 →
    assembleLine (.text bs) = some (0x02 :: BitVec.ofNat 8 bs.length :: bs)) ∧
  (∀ n, n < 2 ^ 32 → assembleLine (.number n) = some
    [0x03, BitVec.ofNat 8 n, BitVec.ofNat 8 (n / 2 ^ 8), BitVec.ofNat 8 (n / 2 ^ 16),
      BitVec.ofNat 8 (n / 2 ^ 24)]) ∧
  (∀ h, h < 2 ^ 32 → assembleLine (.countdown h) = some
    [0x04, BitVec.ofNat 8 h, BitVec.ofNat 8 (h / 2 ^ 8), BitVec.ofNat 8 (h / 2 ^ 16),
      BitVec.ofNat 8 (h / 2 ^ 24)]) ∧
  assembleLine .run = some [0x05] ∧
  assembleLine .clear = some [0x02, 0x00] ∧
  (AsmLine.init.command = some .init ∧ AsmLine.run.command = some .runDisplayLoop ∧
    AsmLine.clear.command = some (.displayText []) ∧
    (∀ bs : List Byte, bs.length ≤ 255 → (AsmLine.text bs).command = some (.displayText bs)) ∧
    (∀ n, n < 2 ^ 32 →
      (AsmLine.number n).command = some (.displayNumber (BitVec.ofNat 32 n))) ∧
    ∀ h, h < 2 ^ 32 →
      (AsmLine.countdown h).command = some (.startCountdown (BitVec.ofNat 32 h))) ∧
  (∀ (l : AsmLine) (bs rest : List Byte), assembleLine l = some bs →
    ∃ i, l.command = some i ∧ decodeHost (bs ++ rest) = .command i rest) ∧
  assembleLine .clear = assembleLine (.text []) ∧
  (∀ h, assembleLine (.days h) = assembleLine (.number (h / 24))) ∧
  (∀ n, assembleLine (.number n) = none ↔ 2 ^ 32 ≤ n) ∧
  (∀ h, assembleLine (.countdown h) = none ↔ 2 ^ 32 ≤ h) ∧
  ∀ bs : List Byte, assembleLine (.text bs) = none ↔ 255 < bs.length

/-! ## The step and the choice of an agent -/

/-- 30_encoding.md R84: when the host port goes next and the bytes of its stream start with a
command, the step consumes that command and executes it whole. Around `exec`, the step uses up one
choice of agent (`consumeChoice`, the model's own, log 1). -/
def Obligations.StepExecutesHostCommand : Prop :=
  ∀ (s : State) (i : Instr) (rest : List Byte), s.faultCode = .none →
    nextAgent s = some .host → decodeHost s.hostQueue = .command i rest →
    step s = exec i { consumeChoice s with hostQueue := rest }

/-- 20_memory.md R69, 43_display_driver.md R162: when another agent goes next, the step is that
agent's internal step; the driver's is the one its phase names. -/
def Obligations.StepExecutesAgentStep : Prop :=
  ∀ (s : State) (c : Choice) (i : Instr), s.faultCode = .none → nextAgent s = some c →
    (c = .scrollTimer ∧ i = .scrollExpire ∨ c = .countTimer ∧ i = .countSubtick ∨
      c = .scrollHandler ∧ i = .scrollIrq ∨ c = .countHandler ∧ i = .countIrq ∨
      c = .driver ∧
        (s.drvPhase = .snap ∧ i = .drvSnapshot ∨ s.drvPhase = .colOn ∧ i = .drvColOn ∨
          s.drvPhase = .row ∧ i = .drvRow ∨ s.drvPhase = .dwell ∧ i = .drvDwell ∨
          s.drvPhase = .rowOff ∧ i = .drvRowOff ∨ s.drvPhase = .colOff ∧ i = .drvColOff)) →
    step s = exec i (consumeChoice s)

/-- 20_memory.md R68, R69: the agent that goes next has an enabled step; the enabled steps are those
R69 lists; and any agent with an enabled step may be chosen: the transitions `Steps` of the block are
exactly what `step` does under some choice put first in the script. -/
def Obligations.AnyEnabledAgentMayGoNext : Prop :=
  (∀ (s : State) (c : Choice), nextAgent s = some c → enabled c s = true) ∧
  (∀ s : State,
    (enabled .host s = true ↔ s.faultCode = .none ∧ decodeHost s.hostQueue ≠ .tooShort) ∧
    (enabled .scrollTimer s = true ↔ s.faultCode = .none ∧ s.scrEn = true) ∧
    (enabled .countTimer s = true ↔ s.faultCode = .none ∧ s.cdEn = true) ∧
    (enabled .scrollHandler s = true ↔ s.faultCode = .none ∧ s.scrPend = true) ∧
    (enabled .countHandler s = true ↔ s.faultCode = .none ∧ s.cdPend = true) ∧
    (enabled .driver s = true ↔ s.faultCode = .none ∧ s.drvPhase ≠ .off)) ∧
  (∀ (s t : State), Steps s t ↔ ∃ c, step { s with sched := c :: s.sched } = .next t)

/-- 20_memory.md R69: an agent with an enabled step has a next state, so that no enabled step is
refused. -/
def Obligations.EnabledStepsComplete : Prop :=
  ∀ (s : State) (c : Choice), enabled c s = true → ∃ t, stepAs c s = .next t

/-- 60_exceptions.md R221: once FAULT_CODE is not 0 no operation and no agent has a step. -/
def Obligations.HaltedBlockHasNoStep : Prop :=
  ∀ s : State, s.faultCode ≠ .none →
    (∀ i, exec i s = .fault (.halted s.faultCode s.faultInfo)) ∧
    (∀ c, enabled c s = false ∧ stepAs c s = .fault (.halted s.faultCode s.faultInfo)) ∧
    step s = .fault (.halted s.faultCode s.faultInfo)

/-- 70_reset_and_hazards.md R252: from reset only a host command can take the first step; with no
byte offered by the host there is no step. -/
def Obligations.OnlyTheHostStepsFirst : Prop :=
  (∀ (bytes : List Byte) (c : Choice),
    enabled c { State.reset with hostQueue := bytes } = true → c = .host) ∧
  ∀ t, step State.reset ≠ .next t

/-! ## Reset and invariants -/

/-- 70_reset_and_hazards.md R251, R252: what reset leaves, for every piece of state the spec gives a
value; IMG_BUF's cells and CUR_IDX are unspecified and not named here. No LED is lit. -/
def Obligations.ResetState : Prop :=
  (∀ k : Fin 5, State.reset.frame[k] = 0b00000) ∧ State.reset.imgLen = 0 ∧
  State.reset.imgBuf.length = Config.cap ∧ State.reset.curValid = false ∧
  State.reset.initDone = false ∧ State.reset.loopRun = false ∧
  State.reset.scrEn = false ∧ State.reset.scrPend = false ∧
  State.reset.cdState = .idle ∧ State.reset.cdHours = 0 ∧ State.reset.cdSub = 0 ∧
  State.reset.cdEn = false ∧ State.reset.cdPend = false ∧
  State.reset.faultCode = .none ∧ State.reset.faultInfo = 0 ∧ State.reset.imask = false ∧
  State.reset.drvPhase = .off ∧ State.reset.drvC = 0 ∧ State.reset.drvR = 0 ∧
  (∀ pr pc, physBit State.reset pr pc = false) ∧
  (∀ i : Fin 9, State.reset.rowOut[i] = .high) ∧ (∀ j : Fin 3, State.reset.colOut[j] = .low) ∧
  ∀ pr pc, ledLit Config.posMap State.reset pr pc = false

/-- 10_state.md R44: the invariants hold after reset. -/
def Obligations.ResetKeepsToTheInvariants : Prop := Inv State.reset

/-- 10_state.md R44, 43_display_driver.md R171, 44_tick_scheduler.md R195: every step of every agent
keeps the invariants, from every state that meets them. -/
def Obligations.EveryStepKeepsTheInvariants : Prop :=
  ∀ s t : State, Inv s → step s = .next t → Inv t

/-! ## The parameters -/

/-- 00_scope.md R7, R8, R9: the machine is the block with any parameters at the values R7 and R8 give;
that `exec`, `step` and `State.reset` take the defaults of R8 where it leaves a value open is the model's
choice (log 4). -/
def Obligations.MachineIsTheBlockAtItsDefaults : Prop :=
  (∀ i s, exec i s = execWith Config.params i s) ∧ (∀ s, step s = stepWith Config.params s) ∧
  (∀ c s, stepAs c s = stepAsWith Config.params c s) ∧
  (∀ s t, Steps s t ↔ StepsWith Config.params s t) ∧
  (∀ cs s, runAs cs s = runAsWith Config.params cs s) ∧
  State.reset = State.resetWith Config.params ∧
  Config.params.cap = 32 ∧ Config.params.ticksPerHour = 28800 ∧ Config.params.hoursPerUnit = 24 ∧
  Config.params.gpioMayFail = true ∧ Config.params.Admissible

/-- 10_state.md R44 for every block: with any capacity, font, map, divisor, and any hour of at least one
sub-tick (00_scope.md R8), the invariants hold after reset and every step keeps them, from every state
that meets them. -/
def Obligations.EveryBlockKeepsTheInvariants : Prop :=
  ∀ p : Params, p.ticksPerHour ≠ 0 →
    InvWith p (State.resetWith p) ∧
    ∀ s t : State, InvWith p s → stepWith p s = .next t → InvWith p t

/-- 00_scope.md R8, R9: what each parameter decides. CAP and FONT_ROM: which content fits; with CAP
below 5 none does. TICKS_PER_HOUR: the roll-over. HOURS_PER_UNIT: the number shown. POS_MAP: the
snapshot. GPIO_MAY_FAIL = 0: no driver step fails or makes a draw (the draws are the model's own fields,
log 3). -/
def Obligations.ParametersDecideTheBlock : Prop :=
  ∀ (p : Params) (s : State), s.faultCode = .none → s.storageWfFor p →
    (s.loopRun = false → ∀ (i : Instr) (text : List Byte),
      (i = .displayText text ∨ ∃ n : Word, i = .displayNumber n ∧ text = decimalText n.toNat) →
      ((textContent p.font text).length ≤ p.cap → ∃ t, execWith p i s = .next t ∧
        t.faultCode = .none ∧ content t = textContent p.font text) ∧
      (p.cap < (textContent p.font text).length ∨ p.cap < 5 → ∃ t, execWith p i s = .next t ∧
        t.faultCode = .capacityExceeded ∧ t.faultInfo = BitVec.ofNat 32 (p.cap + 1))) ∧
    (s.cdEn = true →
      execWith p .countSubtick s =
        if s.cdSub = p.ticksPerHour - 1 then .next { s with cdSub := 0, cdPend := true }
        else .next { s with cdSub := s.cdSub + 1 }) ∧
    (s.cdPend = true → s.cdState = .running → p.hoursPerUnit ≠ 0 → ∀ text : List Byte,
      text = decimalText ((s.cdHours - 1).toNat / p.hoursPerUnit.toNat) →
      (textContent p.font text).length ≤ p.cap → ∃ t, execWith p .countIrq s = .next t ∧
        t.faultCode = .none ∧ content t = textContent p.font text) ∧
    (s.drvPhase = .snap → ∃ t, execWith p .drvSnapshot s = .next t ∧
      ∀ (pr : Fin 9) (pc : Fin 3), t.drvPhys[pr][pc] = true ↔
        ∃ r k : Fin 5, p.posMap.cell r k = (pr, pc) ∧ (s.frame[k]).getLsbD (4 - r.val) = true) ∧
    (p.gpioMayFail = false → s.drvPhase ≠ .off → ∃ t, stepAsWith p .driver s = .next t ∧
      t.faultCode = .none ∧ t.pinScript = s.pinScript ∧ t.pinDraws = s.pinDraws)

/-! ## Host commands -/

/-- 30_encoding.md R88: a command whose precondition fails raises PROTOCOL_VIOLATION with its opcode
and has no other effect; a command whose precondition holds does not raise it. -/
def Obligations.PreconditionFailureIsProtocolViolation : Prop :=
  ∀ (i : Instr) (s : State), i.isHostCommand = true → s.faultCode = .none →
    (¬ hostPrecondition i s →
      exec i s = .next (faulted s .protocolViolation (zext32 i.opcode))) ∧
    (hostPrecondition i s → ∃ t, exec i s = .next t ∧ t.faultCode ≠ .protocolViolation)

/-- 30_encoding.md R87: a reserved opcode raises ILLEGAL_COMMAND with the opcode, whatever the other
state is, and has no other effect. -/
def Obligations.ReservedOpcodeIsIllegalCommand : Prop :=
  ∀ (s : State) (op : Byte) (rest : List Byte), s.faultCode = .none →
    s.hostQueue = op :: rest → (op = 0x00 ∨ 0x06 ≤ op.toNat) →
    stepAs .host s = .next (faulted { s with hostQueue := rest } .illegalCommand (zext32 op))

/-- 44_tick_scheduler.md R190: INIT sets INIT_DONE and SCR_EN, once and before the loop, and writes
nothing else. -/
def Obligations.InitResult : Prop :=
  encode .init = [0x01] ∧ ∀ s : State, s.faultCode = .none →
    (s.loopRun = false → s.initDone = false →
      exec .init s = .next { s with initDone := true, scrEn := true, imask := false }) ∧
    (s.loopRun = true ∨ s.initDone = true →
      exec .init s = .next (faulted s .protocolViolation 0x01))

/-- 41_image_encoder.md R114: the content of the text replaces the buffer and the cursor is unset;
nothing else is written. Content longer than CAP raises CAPACITY_EXCEEDED with CAP + 1 (R110,
60_exceptions.md R221); that IMG_LEN is then CAP is the model's reading (log 20), and the buffer's cells
are not stated (93_implementation_defined.md U4). That CUR_IDX keeps its value while the cursor is
unset is the model's choice (log 9). -/
def Obligations.DisplayTextResult : Prop :=
  ∀ text : List Byte, encode (.displayText text) = 0x02 :: BitVec.ofNat 8 text.length :: text ∧
    ∀ s : State, s.faultCode = .none → s.storageWf →
    (s.loopRun = false → (textContent Config.fontRom text).length ≤ Config.cap →
      exec (.displayText text) s =
        .next { withContent s (textContent Config.fontRom text) with imask := false }) ∧
    (s.loopRun = false → Config.cap < (textContent Config.fontRom text).length →
      ∃ buf : List ColImage, buf.length = Config.cap ∧
        exec (.displayText text) s =
          .next (faulted { s with imgBuf := buf, imgLen := Config.cap, curValid := false }
            .capacityExceeded (BitVec.ofNat 32 (Config.cap + 1)))) ∧
    (s.loopRun = true → exec (.displayText text) s = .next (faulted s .protocolViolation 0x02))

/-- 41_image_encoder.md R117, R115: the content is that of the decimal digits of `n`, most
significant first, with one blank frame at the end. As for DISPLAY_TEXT, that IMG_LEN is CAP after
CAPACITY_EXCEEDED is the model's reading (log 20), and that CUR_IDX keeps its value while the cursor is
unset is the model's choice (log 9). -/
def Obligations.DisplayNumberResult : Prop :=
  ∀ n : Word, encode (.displayNumber n) =
      [0x03, n.extractLsb' 0 8, n.extractLsb' 8 8, n.extractLsb' 16 8, n.extractLsb' 24 8] ∧
    ∀ s : State, s.faultCode = .none → s.storageWf →
    (s.loopRun = false →
      (textContent Config.fontRom (decimalText n.toNat)).length ≤ Config.cap →
      exec (.displayNumber n) s =
        .next { withContent s (textContent Config.fontRom (decimalText n.toNat)) with
          imask := false }) ∧
    (s.loopRun = false →
      Config.cap < (textContent Config.fontRom (decimalText n.toNat)).length →
      ∃ buf : List ColImage, buf.length = Config.cap ∧
        exec (.displayNumber n) s =
          .next (faulted { s with imgBuf := buf, imgLen := Config.cap, curValid := false }
            .capacityExceeded (BitVec.ofNat 32 (Config.cap + 1)))) ∧
    (s.loopRun = true → exec (.displayNumber n) s = .next (faulted s .protocolViolation 0x03))

/-- 41_image_encoder.md R120: DISPLAY_NUMBER is DISPLAY_TEXT of the decimal string, from every state
and with the same fault where the buffer overflows, for the machine's parameters and any others. -/
def Obligations.NumberIsTextOfItsDigits : Prop :=
  (∀ (n : Word) (s : State), s.loopRun = false →
    exec (.displayNumber n) s = exec (.displayText (decimalText n.toNat)) s) ∧
  ∀ (p : Params) (n : Word) (s : State), numberBody p n s = textBody p (decimalText n.toNat) s

/-- 41_image_encoder.md R118: after an encode that completes the cursor is unset, the buffer holds at
least 5 columns, and the next tick sets the cursor to 0; no operation takes the buffer back below 5
columns. The last clause covers also the operations that end with CAPACITY_EXCEEDED: that IMG_LEN is at
least 5 then, being CAP, is the model's reading (log 20; 93_implementation_defined.md U4 says that the
buffer is not to be relied on there). -/
def Obligations.EncodeResetsTheCursor : Prop :=
  (∀ (i : Instr) (s t : State),
    (∃ text, i = .displayText text) ∨ (∃ n, i = .displayNumber n) → s.storageWf →
    exec i s = .next t → t.faultCode = .none →
    t.curValid = false ∧ 5 ≤ t.imgLen ∧
      ∃ u, exec .scrollIrq { t with scrPend := true } = .next u ∧ u.curValid = true ∧
        u.curIdx = 0) ∧
  ∀ (i : Instr) (s t : State), s.storageWf → 5 ≤ s.imgLen → exec i s = .next t → 5 ≤ t.imgLen

/-- 44_tick_scheduler.md R191: START_COUNTDOWN loads the hours and starts the timer, or stops at once
for 0 hours; nothing else is written, the image buffer not among it. -/
def Obligations.StartCountdownResult : Prop :=
  ∀ h : Word, encode (.startCountdown h) =
      [0x04, h.extractLsb' 0 8, h.extractLsb' 8 8, h.extractLsb' 16 8, h.extractLsb' 24 8] ∧
    ∀ s : State, s.faultCode = .none →
    (s.loopRun = false → s.initDone = true → s.cdState = .idle →
      (h ≠ 0 → exec (.startCountdown h) s =
        .next { s with
          cdSub := 0, cdPend := false, cdHours := h, cdState := .running, cdEn := true,
          imask := false }) ∧
      (h = 0 → exec (.startCountdown h) s =
        .next { s with
          cdSub := 0, cdPend := false, cdHours := 0, cdState := .stopped, cdEn := false,
          imask := false })) ∧
    (s.loopRun = true ∨ s.initDone = false ∨ s.cdState ≠ .idle →
      exec (.startCountdown h) s = .next (faulted s .protocolViolation 0x04))

/-- 43_display_driver.md R163: RUN_DISPLAY_LOOP starts the driver at SNAP. -/
def Obligations.RunDisplayLoopResult : Prop :=
  encode .runDisplayLoop = [0x05] ∧ ∀ s : State, s.faultCode = .none →
    (s.loopRun = false → s.initDone = true →
      exec .runDisplayLoop s =
        .next { s with loopRun := true, drvPhase := .snap, imask := false }) ∧
    (s.loopRun = true ∨ s.initDone = false →
      exec .runDisplayLoop s = .next (faulted s .protocolViolation 0x05))

/-! ## Font ROM and glyphs -/

/-- 40_font_rom.md R101: the constraints of the machine's font ROM. -/
def Obligations.FontRomIsAdmissible : Prop :=
  (∀ w c g, romRead Config.fontRom w c = some g → g.length = w.columns) ∧
  (∀ w w' c g g', romRead Config.fontRom w c = some g → romRead Config.fontRom w' c = some g' →
    w = w') ∧
  romRead Config.fontRom .w1 0x31 = some [0b11111] ∧
  (∃ g, romRead Config.fontRom .w3 0x32 = some g) ∧
  (∃ g, romRead Config.fontRom .w3 0x38 = some g) ∧
  ∃ w g, romRead Config.fontRom w 0x30 = some g

/-- 40_font_rom.md R102: FONT_LOOKUP answers the glyph of the matching width class, and no match where
no class has the character. Executed as an operation of its own, which no run does (30_encoding.md
R92), it completes, writes nothing and raises nothing: the model's reading (log 14). -/
def Obligations.FontLookupFindsTheMatchingClass : Prop :=
  (∀ (rom : FontRom) (c : Byte), fontLookup rom c =
    (romRead rom .w1 c).or ((romRead rom .w2 c).or (romRead rom .w3 c))) ∧
  (∀ (rom : FontRom) (c : Byte) (w : WidthClass) (g : List ColImage),
    romRead rom w c = some g → fontLookup rom c = some g) ∧
  (∀ (rom : FontRom) (c : Byte), (∀ w, romRead rom w c = none) → fontLookup rom c = none) ∧
  ∀ (c : Byte) (s : State), (Instr.fontLookup c).opcode = 0x8A ∧
    (s.faultCode = .none → exec (.fontLookup c) s = .next s)

/-- 41_image_encoder.md R112: APPEND_GLYPH pushes the glyph's columns in ROM order, or nothing for an
unsupported character, and exactly one blank column, and writes nothing else. Executing it as an
operation of its own, which no run does (30_encoding.md R92), is the model's reading (log 14), and so is
IMG_LEN = CAP after CAPACITY_EXCEEDED (log 20). -/
def Obligations.AppendGlyphResult : Prop :=
  ∀ c : Byte, (Instr.appendGlyph c).opcode = 0x8B ∧
    ∀ s : State, s.faultCode = .none → s.storageWf →
    ∀ cols, (cols = match fontLookup Config.fontRom c with
      | some g => g ++ [0b00000]
      | none => [0b00000]) →
    (s.imgLen + cols.length ≤ Config.cap →
      exec (.appendGlyph c) s = .next { s with
        imgBuf := s.imgBuf.take s.imgLen ++ cols ++ s.imgBuf.drop (s.imgLen + cols.length)
        imgLen := s.imgLen + cols.length }) ∧
    (Config.cap < s.imgLen + cols.length →
      ∃ buf : List ColImage, buf.length = Config.cap ∧
        exec (.appendGlyph c) s = .next { s with
          imgBuf := buf
          imgLen := Config.cap
          faultCode := .capacityExceeded
          faultInfo := BitVec.ofNat 32 (Config.cap + 1) })

/-- 41_image_encoder.md R110: a push into a full buffer raises CAPACITY_EXCEEDED with CAP + 1 and
makes no write; any other push stores one column and lengthens the content by one. For any
parameters. -/
def Obligations.PushResult : Prop :=
  ∀ (p : Params) (v : ColImage) (s : State),
    (s.imgLen = p.cap → push p v s = .error { s with
      faultCode := .capacityExceeded, faultInfo := BitVec.ofNat 32 (p.cap + 1) }) ∧
    (s.imgLen ≠ p.cap → push p v s = .ok { s with
      imgBuf := s.imgBuf.set s.imgLen v, imgLen := s.imgLen + 1 }) ∧
    (s.imgLen < s.imgBuf.length →
      content { s with imgBuf := s.imgBuf.set s.imgLen v, imgLen := s.imgLen + 1 } =
        content s ++ [v])

/-! ## Scroll -/

/-- 42_scroll.md R140: SCROLL_EXPIRE, enabled while SCR_EN = 1, sets SCR_PEND and nothing else, and
changes nothing when it is set already. -/
def Obligations.ScrollExpireResult : Prop :=
  Instr.scrollExpire.opcode = 0x80 ∧ ∀ s : State,
    (s.faultCode = .none → s.scrEn = true →
      exec .scrollExpire s = .next { s with scrPend := true }) ∧
    (s.faultCode = .none → s.scrEn = true → s.scrPend = true →
      exec .scrollExpire s = .next s) ∧
    (s.faultCode ≠ .none ∨ s.scrEn = false → ∀ t, exec .scrollExpire s ≠ .next t)

/-- 42_scroll.md R142: the tick. -/
def Obligations.ScrollIrqResult : Prop :=
  Instr.scrollIrq.opcode = 0x81 ∧ ∀ s : State,
    (s.faultCode ≠ .none ∨ s.scrPend = false → ∀ t, exec .scrollIrq s ≠ .next t) ∧
    (s.faultCode = .none → s.scrPend = true → s.imgLen = 0 →
      exec .scrollIrq s = .next { s with scrPend := false, imask := false }) ∧
    (s.faultCode = .none → s.scrPend = true → s.imgLen ≠ 0 →
      ∀ idx, (idx = if s.curValid = false ∨ s.imgLen - 1 ≤ s.curIdx then 0 else s.curIdx + 1) →
        idx < s.imgLen ∧
        ∀ v, s.imgBuf[idx]? = some v →
          exec .scrollIrq s = .next { s with
            curIdx := idx
            curValid := true
            frame := #v[s.frame[1], s.frame[2], s.frame[3], s.frame[4], v]
            scrPend := false
            imask := false })

/-- 42_scroll.md R144: `IMG_LEN` ticks return the cursor to its starting value, and from 0 it runs
1, 2, up to IMG_LEN - 1. -/
def Obligations.CursorIsCyclic : Prop :=
  ∀ s : State, s.faultCode = .none → s.scrEn = true → s.curValid = true → s.curIdx < s.imgLen →
    (∃ t, runAs (ticks s.imgLen) s = .next t ∧ t.curValid = true ∧ t.curIdx = s.curIdx) ∧
    ∀ k, k < s.imgLen → s.curIdx = 0 →
      ∃ t, runAs (ticks k) s = .next t ∧ t.curValid = true ∧ t.curIdx = k

/-- 42_scroll.md R145: after an encode (the cursor unset) and `k` ticks, the cursor is
`(k - 1) mod IMG_LEN` and the frame holds the last five of the old frame's columns followed by the
content's, cyclically. -/
def Obligations.ScrolledFrame : Prop :=
  ∀ (s : State) (k : Nat), s.faultCode = .none → s.scrEn = true → s.storageWf →
    s.curValid = false → s.imgLen ≠ 0 → 1 ≤ k →
    ∃ t, runAs (ticks k) s = .next t ∧ t.curValid = true ∧ t.curIdx = (k - 1) % s.imgLen ∧
      t.frame.toList = (s.frame.toList ++ (List.range k).map fun j =>
        (content s).getD (j % s.imgLen) 0).drop k

/-! ## Countdown -/

/-- 44_tick_scheduler.md R193: COUNT_SUBTICK counts, and the 28,800th tick rolls over and makes the
hour event pending. -/
def Obligations.CountSubtickResult : Prop :=
  Instr.countSubtick.opcode = 0x82 ∧ ∀ s : State,
    (s.faultCode ≠ .none ∨ s.cdEn = false → ∀ t, exec .countSubtick s ≠ .next t) ∧
    (s.faultCode = .none → s.cdEn = true → s.cdSub = 28799 →
      exec .countSubtick s = .next { s with cdSub := 0, cdPend := true }) ∧
    (s.faultCode = .none → s.cdEn = true → s.cdSub ≠ 28799 →
      exec .countSubtick s = .next { s with cdSub := s.cdSub + 1 })

/-- 44_tick_scheduler.md R194: COUNT_IRQ decrements the hours, stops the timer at 0, and re-encodes
`hours / 24`; a re-encode that overflows ends the step with the decrement made and CD_PEND still set
(90_conflicts.md C10). IMG_LEN = CAP after that fault is the model's reading (log 20), and that CUR_IDX
keeps its value while the cursor is unset is the model's choice (log 9). -/
def Obligations.CountIrqResult : Prop :=
  Instr.countIrq.opcode = 0x83 ∧ ∀ s : State, s.storageWf →
    (s.faultCode ≠ .none ∨ s.cdPend = false → ∀ t, exec .countIrq s ≠ .next t) ∧
    (s.faultCode = .none → s.cdPend = true → s.cdState ≠ .running →
      exec .countIrq s = .next { s with cdPend := false, imask := false }) ∧
    (s.faultCode = .none → s.cdPend = true → s.cdState = .running →
      ∀ (k : Word) (cols : List ColImage), k = s.cdHours - 1 →
        cols = textContent Config.fontRom (decimalText (k.toNat / 24)) →
        (cols.length ≤ Config.cap →
          exec .countIrq s = .next { withContent s cols with
            cdHours := k
            cdState := if k = 0 then .stopped else .running
            cdEn := if k = 0 then false else s.cdEn
            cdPend := false
            imask := false }) ∧
        (Config.cap < cols.length →
          ∃ buf : List ColImage, buf.length = Config.cap ∧
            exec .countIrq s = .next (faulted { s with
              imgBuf := buf
              imgLen := Config.cap
              curValid := false
              cdHours := k
              cdState := if k = 0 then .stopped else .running
              cdEn := if k = 0 then false else s.cdEn }
              .capacityExceeded (BitVec.ofNat 32 (Config.cap + 1)))))

/-- 44_tick_scheduler.md R196: from the start of an hour, exactly 28,800 sub-ticks make the hour event
pending, none before; the handler then takes one hour off and shows the new number. -/
def Obligations.OneHourIs28800Subticks : Prop :=
  ∀ s : State, s.faultCode = .none → s.storageWf → s.cdState = .running → s.cdHours ≠ 0 →
    s.cdEn = true → s.cdSub = 0 → s.cdPend = false →
    (∀ k, k < 28800 → runAs (List.replicate k .countTimer) s =
      .next { s with cdSub := BitVec.ofNat 32 k }) ∧
    runAs (List.replicate 28800 .countTimer) s = .next { s with cdPend := true } ∧
    ∀ cols, cols = textContent Config.fontRom (decimalText ((s.cdHours.toNat - 1) / 24)) →
      cols.length ≤ Config.cap →
      ∃ t, runAs (List.replicate 28800 .countTimer ++ [.countHandler]) s = .next t ∧
        t.cdHours = s.cdHours - 1 ∧ t.cdPend = false ∧ t.curValid = false ∧ content t = cols

/-- 44_tick_scheduler.md R192, R197: in STOPPED the countdown has no step and no step of any agent
leaves STOPPED, restarts the timer or changes the hours. -/
def Obligations.StoppedIsForEver : Prop :=
  ∀ (s : State), s.cdState = .stopped → s.cdEn = false → s.cdPend = false →
    enabled .countTimer s = false ∧ enabled .countHandler s = false ∧
    ∀ (c : Choice) (t : State), stepAs c s = .next t →
      t.cdState = .stopped ∧ t.cdEn = false ∧ t.cdPend = false ∧ t.cdHours = s.cdHours ∧
        t.cdSub = s.cdSub

/-! ## Display driver -/

/-- 43_display_driver.md R170: a physical bit is 1 exactly when some logical cell mapped to it is lit;
a cell outside the map's image is 0. For any admissible map. -/
def Obligations.TransformFollowsTheMap : Prop :=
  ∀ (m : PosMap) (f : Vector ColImage 5) (pr : Fin 9) (pc : Fin 3),
    ((transform m f)[pr][pc] = true ↔
      ∃ r k : Fin 5, m.cell r k = (pr, pc) ∧ (f[k]).getLsbD (4 - r.val) = true) ∧
    ((∀ r k, m.cell r k ≠ (pr, pc)) → (transform m f)[pr][pc] = false)

/-- 10_state.md R27: exactly two physical cells are the image of no logical cell. -/
def Obligations.TwoPhysicalCellsAreUnused : Prop :=
  ∀ m : PosMap,
    ((Finset.univ : Finset (Fin 9 × Fin 3)).filter fun q => ∀ r k, m.cell r k ≠ q).card = 2

/-- 43_display_driver.md R164: DRV_SNAPSHOT copies the frame, transformed, and goes on to the first
column; FRAME is only read. -/
def Obligations.SnapshotResult : Prop :=
  Instr.drvSnapshot.opcode = 0x84 ∧ ∀ s : State,
    (s.faultCode = .none → s.drvPhase = .snap → ∃ phys : Vector (Vector Bool 3) 9,
      (∀ (pr : Fin 9) (pc : Fin 3), phys[pr][pc] = true ↔
        ∃ r k : Fin 5, Config.posMap.cell r k = (pr, pc) ∧
          (s.frame[k]).getLsbD (4 - r.val) = true) ∧
      exec .drvSnapshot s = .next { s with
        drvPhys := phys, drvC := 0, drvPhase := .colOn, imask := false }) ∧
    (s.faultCode ≠ .none ∨ s.drvPhase ≠ .snap → ∀ t, exec .drvSnapshot s ≠ .next t)

/-- 43_display_driver.md R165: DRV_COL_ON raises its column. A write that fails (the draw of R161,
which the model takes from `drawnFail`, log 3) raises GPIO_WRITE_FAILURE and writes nothing else. -/
def Obligations.ColOnResult : Prop :=
  Instr.drvColOn.opcode = 0x85 ∧ ∀ s : State, s.faultCode = .none →
    (s.drvPhase = .colOn → drawnFail s = false →
      exec .drvColOn s = .next { consumeDraw s with
        colOut := s.colOut.set s.drvC .high, drvR := 0, drvPhase := .row }) ∧
    (s.drvPhase = .colOn → drawnFail s = true →
      exec .drvColOn s = .next { consumeDraw s with
        faultCode := .gpioWriteFailure, faultInfo := BitVec.ofNat 32 (0x10 + s.drvC.val) }) ∧
    (s.drvPhase ≠ .colOn → ∀ t, exec .drvColOn s ≠ .next t)

/-- 43_display_driver.md R166: DRV_ROW drives row DRV_R low if and only if its cell is lit, and goes
on to the next row or, after row 8, to the dwell. -/
def Obligations.RowResult : Prop :=
  Instr.drvRow.opcode = 0x86 ∧ ∀ s : State, s.faultCode = .none →
    (s.drvPhase = .row → drawnFail s = false →
      ∀ rows, rows = s.rowOut.set s.drvR
        (if s.drvPhys[s.drvR][s.drvC] = true then Level.low else Level.high) →
      (∀ h : s.drvR.val < 8, exec .drvRow s = .next { consumeDraw s with
        rowOut := rows, drvR := ⟨s.drvR.val + 1, by omega⟩ }) ∧
      (s.drvR.val = 8 → exec .drvRow s = .next { consumeDraw s with
        rowOut := rows, drvPhase := .dwell })) ∧
    (s.drvPhase = .row → drawnFail s = true →
      exec .drvRow s = .next { consumeDraw s with
        faultCode := .gpioWriteFailure, faultInfo := BitVec.ofNat 32 s.drvR.val }) ∧
    (s.drvPhase ≠ .row → ∀ t, exec .drvRow s ≠ .next t)

/-- 43_display_driver.md R167: DRV_DWELL changes no output; the wait has no duration (log 18). -/
def Obligations.DwellResult : Prop :=
  Instr.drvDwell.opcode = 0x87 ∧ ∀ s : State,
    (s.faultCode = .none → s.drvPhase = .dwell →
      exec .drvDwell s = .next { s with drvR := 0, drvPhase := .rowOff }) ∧
    (s.faultCode ≠ .none ∨ s.drvPhase ≠ .dwell → ∀ t, exec .drvDwell s ≠ .next t)

/-- 43_display_driver.md R168: DRV_ROW_OFF restores row DRV_R to HIGH. -/
def Obligations.RowOffResult : Prop :=
  Instr.drvRowOff.opcode = 0x88 ∧ ∀ s : State, s.faultCode = .none →
    (s.drvPhase = .rowOff → drawnFail s = false →
      (∀ h : s.drvR.val < 8, exec .drvRowOff s = .next { consumeDraw s with
        rowOut := s.rowOut.set s.drvR .high, drvR := ⟨s.drvR.val + 1, by omega⟩ }) ∧
      (s.drvR.val = 8 → exec .drvRowOff s = .next { consumeDraw s with
        rowOut := s.rowOut.set s.drvR .high, drvPhase := .colOff })) ∧
    (s.drvPhase = .rowOff → drawnFail s = true →
      exec .drvRowOff s = .next { consumeDraw s with
        faultCode := .gpioWriteFailure, faultInfo := BitVec.ofNat 32 s.drvR.val }) ∧
    (s.drvPhase ≠ .rowOff → ∀ t, exec .drvRowOff s ≠ .next t)

/-- 43_display_driver.md R169: DRV_COL_OFF lowers its column and goes on to the next column, or after
column 2 to a new snapshot with DRV_C left at 2. -/
def Obligations.ColOffResult : Prop :=
  Instr.drvColOff.opcode = 0x89 ∧ ∀ s : State, s.faultCode = .none →
    (s.drvPhase = .colOff → drawnFail s = false →
      (∀ h : s.drvC.val < 2, exec .drvColOff s = .next { consumeDraw s with
        colOut := s.colOut.set s.drvC .low
        drvC := ⟨s.drvC.val + 1, by omega⟩
        drvPhase := .colOn }) ∧
      (s.drvC.val = 2 → exec .drvColOff s = .next { consumeDraw s with
        colOut := s.colOut.set s.drvC .low, drvPhase := .snap })) ∧
    (s.drvPhase = .colOff → drawnFail s = true →
      exec .drvColOff s = .next { consumeDraw s with
        faultCode := .gpioWriteFailure, faultInfo := BitVec.ofNat 32 (0x10 + s.drvC.val) }) ∧
    (s.drvPhase ≠ .colOff → ∀ t, exec .drvColOff s ≠ .next t)

/-- 43_display_driver.md R172: one refresh cycle is 64 driver steps and 60 output writes; it returns
to SNAP with every output at the inactive level it started from. The writes are counted by the outcomes
they use up in `pinScript`, the model's own field (log 3). -/
def Obligations.RefreshCycleIs64Steps : Prop :=
  ∀ (s : State) (script : List Bool), s.faultCode = .none → s.drvPhase = .snap →
    (∀ i : Fin 9, s.rowOut[i] = .high) → (∀ j : Fin 3, s.colOut[j] = .low) →
    s.pinScript = List.replicate 60 false ++ script →
    runAs (List.replicate 64 .driver) s = .next { s with
      drvPhys := transform Config.posMap s.frame
      drvC := 2
      drvR := 8
      pinScript := script
      imask := false }

/-- 43_display_driver.md R173, 10_state.md R29: at the DWELL step of column `c` of a cycle the lit
LEDs are exactly those of the cycle's snapshot in that column. That no write of the cycle fails is said
through `pinScript`, the model's own field (log 3). -/
def Obligations.DwellLightsTheSnapshot : Prop :=
  ∀ (s : State) (script : List Bool) (c : Fin 3), s.faultCode = .none → s.drvPhase = .snap →
    (∀ i : Fin 9, s.rowOut[i] = .high) → (∀ j : Fin 3, s.colOut[j] = .low) →
    s.pinScript = List.replicate 60 false ++ script →
    ∃ t, runAs (List.replicate (21 * c.val + 11) .driver) s = .next t ∧
      t.drvPhase = .dwell ∧ t.drvC = c ∧
      ∀ pr pc, ledLit Config.posMap t pr pc = true ↔
        pc = c ∧ ∃ r k, Config.posMap.cell r k = (pr, pc) ∧ frameBit s.frame r k = true

/-- 43_display_driver.md R171, R173: in every state that meets the invariants at most one column is
HIGH, and at a DWELL step the lit LEDs are those of DRV_PHYS in the driven column. -/
def Obligations.OneColumnIsDriven : Prop :=
  ∀ s : State, Inv s →
    (∀ c c' : Fin 3, s.colOut[c] = .high → s.colOut[c'] = .high → c = c') ∧
    (∀ c : Fin 3, s.colOut[c] = .high → c = s.drvC ∧
      (s.drvPhase = .row ∨ s.drvPhase = .dwell ∨ s.drvPhase = .rowOff ∨ s.drvPhase = .colOff)) ∧
    (s.drvPhase = .dwell → ∀ pr pc,
      ledLit Config.posMap s pr pc = true ↔ pc = s.drvC ∧ s.drvPhys[pr][pc] = true)

/-- 43_display_driver.md R174: a driver step other than the snapshot reads only driver-local state and
the outputs (and the failure draw and FAULT_CODE): two states that agree on those take the same step
to states that agree on them, and neither changes shared state. -/
def Obligations.DriverReadsNoSharedState : Prop :=
  ∀ (i : Instr) (s t s' : State),
    (i = .drvColOn ∨ i = .drvRow ∨ i = .drvDwell ∨ i = .drvRowOff ∨ i = .drvColOff) →
    s.faultCode = t.faultCode → s.faultInfo = t.faultInfo → s.drvPhase = t.drvPhase →
    s.drvC = t.drvC → s.drvR = t.drvR → s.drvPhys = t.drvPhys → s.rowOut = t.rowOut →
    s.colOut = t.colOut → s.pinScript = t.pinScript → s.pinDraws = t.pinDraws →
    exec i s = .next s' →
    s'.frame = s.frame ∧ s'.imgBuf = s.imgBuf ∧ s'.imgLen = s.imgLen ∧
    s'.curValid = s.curValid ∧ s'.curIdx = s.curIdx ∧ s'.cdHours = s.cdHours ∧
    ∃ t', exec i t = .next t' ∧ s'.faultCode = t'.faultCode ∧ s'.faultInfo = t'.faultInfo ∧
      s'.drvPhase = t'.drvPhase ∧ s'.drvC = t'.drvC ∧ s'.drvR = t'.drvR ∧
      s'.drvPhys = t'.drvPhys ∧ s'.rowOut = t'.rowOut ∧ s'.colOut = t'.colOut

/-! ## Frames: who writes what -/

/-- 10_state.md R24, R25, R26: FRAME is written only by SCROLL_IRQ, the image buffer only by the
encoder, the cursor only by the encoder's clear and SCROLL_IRQ. That the clear leaves CUR_IDX as it was,
so that CUR_IDX changes only in SCROLL_IRQ, is the model's choice (log 9). -/
def Obligations.SharedStateWriters : Prop :=
  ∀ (i : Instr) (s t : State), exec i s = .next t →
    (t.frame ≠ s.frame → i = .scrollIrq) ∧
    (t.imgBuf ≠ s.imgBuf ∨ t.imgLen ≠ s.imgLen →
      (∃ text, i = .displayText text) ∨ (∃ n, i = .displayNumber n) ∨ i = .countIrq ∨
        ∃ c, i = .appendGlyph c) ∧
    (t.curValid ≠ s.curValid →
      (∃ text, i = .displayText text) ∨ (∃ n, i = .displayNumber n) ∨ i = .countIrq ∨
        i = .scrollIrq) ∧
    (t.curIdx ≠ s.curIdx → i = .scrollIrq)

/-- 10_state.md R28: the outputs are written only by the driver sequencer, a row only by DRV_ROW and
DRV_ROW_OFF, a column only by DRV_COL_ON and DRV_COL_OFF, and one step writes at most the output its
registers name. -/
def Obligations.OutputWriters : Prop :=
  ∀ (i : Instr) (s t : State), exec i s = .next t →
    (t.rowOut ≠ s.rowOut → i = .drvRow ∨ i = .drvRowOff) ∧
    (t.colOut ≠ s.colOut → i = .drvColOn ∨ i = .drvColOff) ∧
    (∀ j : Fin 9, j ≠ s.drvR → t.rowOut[j] = s.rowOut[j]) ∧
    (∀ j : Fin 3, j ≠ s.drvC → t.colOut[j] = s.colOut[j])

/-- 10_state.md R30: the "written by" column of the control and status registers, with CD_PEND's
clearing by START_COUNTDOWN, which 44_tick_scheduler.md R191 adds to that column. FAULT_CODE and
FAULT_INFO change only where a step raises a fault (60_exceptions.md R220, R221). -/
def Obligations.ControlRegisterWriters : Prop :=
  ∀ (i : Instr) (s t : State), exec i s = .next t →
    (t.initDone ≠ s.initDone → i = .init) ∧
    (t.loopRun ≠ s.loopRun → i = .runDisplayLoop) ∧
    (t.scrEn ≠ s.scrEn → i = .init) ∧
    (t.scrPend ≠ s.scrPend → i = .scrollExpire ∧ t.scrPend = true ∨
      i = .scrollIrq ∧ t.scrPend = false) ∧
    (t.cdState ≠ s.cdState → (∃ h, i = .startCountdown h) ∨ i = .countIrq) ∧
    (t.cdHours ≠ s.cdHours → (∃ h, i = .startCountdown h) ∨ i = .countIrq) ∧
    (t.cdSub ≠ s.cdSub → (∃ h, i = .startCountdown h) ∨ i = .countSubtick) ∧
    (t.cdEn ≠ s.cdEn → (∃ h, i = .startCountdown h) ∨ i = .countIrq) ∧
    (t.cdPend ≠ s.cdPend → i = .countSubtick ∧ t.cdPend = true ∨
      ((∃ h, i = .startCountdown h) ∨ i = .countIrq) ∧ t.cdPend = false) ∧
    (t.faultCode ≠ s.faultCode ∨ t.faultInfo ≠ s.faultInfo →
      s.faultCode = .none ∧ t.faultCode ≠ .none ∧
        (∀ c, i ≠ .fontLookup c) ∧ i ≠ .scrollExpire ∧ i ≠ .scrollIrq ∧ i ≠ .countSubtick ∧
        i ≠ .drvSnapshot ∧ i ≠ .drvDwell)

/-- 10_state.md R42, 60_exceptions.md R226: driver-local state is written only by the driver's steps
and RUN_DISPLAY_LOOP, so that no handler touches the main context; no operation touches the host's
stream or the schedule, and only an output write uses up a failure draw. -/
def Obligations.MainContextWriters : Prop :=
  ∀ (i : Instr) (s t : State), exec i s = .next t →
    (t.drvPhase ≠ s.drvPhase → i = .runDisplayLoop ∨ i = .drvSnapshot ∨ i = .drvColOn ∨
      i = .drvRow ∨ i = .drvDwell ∨ i = .drvRowOff ∨ i = .drvColOff) ∧
    (t.drvC ≠ s.drvC → i = .drvSnapshot ∨ i = .drvColOff) ∧
    (t.drvR ≠ s.drvR → i = .drvColOn ∨ i = .drvRow ∨ i = .drvDwell ∨ i = .drvRowOff) ∧
    (t.drvPhys ≠ s.drvPhys → i = .drvSnapshot) ∧
    t.hostQueue = s.hostQueue ∧ t.sched = s.sched ∧ t.schedDraws = s.schedDraws ∧
    (t.pinScript ≠ s.pinScript ∨ t.pinDraws ≠ s.pinDraws →
      i = .drvColOn ∨ i = .drvRow ∨ i = .drvRowOff ∨ i = .drvColOff)

/-! ## Faults and interrupts -/

/-- 60_exceptions.md R220, R222: which operation raises which fault, with which FAULT_INFO; the
operations not named raise none. -/
def Obligations.FaultsAreRaisedAsListed : Prop :=
  ∀ (i : Instr) (s t : State), exec i s = .next t →
    s.faultCode = .none ∧
    (t.faultCode = .none ∧ t.faultInfo = s.faultInfo ∨
      t.faultCode = .capacityExceeded ∧ t.faultInfo = BitVec.ofNat 32 (Config.cap + 1) ∧
        ((∃ text, i = .displayText text) ∨ (∃ n, i = .displayNumber n) ∨ i = .countIrq ∨
          ∃ c, i = .appendGlyph c) ∨
      t.faultCode = .gpioWriteFailure ∧ t.faultInfo = BitVec.ofNat 32 (0x10 + s.drvC.val) ∧
        (i = .drvColOn ∨ i = .drvColOff) ∨
      t.faultCode = .gpioWriteFailure ∧ t.faultInfo = BitVec.ofNat 32 s.drvR.val ∧
        (i = .drvRow ∨ i = .drvRowOff) ∨
      t.faultCode = .protocolViolation ∧ t.faultInfo = zext32 i.opcode ∧ i.isHostCommand = true)

/-- 60_exceptions.md R224: a pending interrupt is never lost: no step but its handler's clears its
flag. -/
def Obligations.PendingIsNeverLost : Prop :=
  ∀ (c : Choice) (s t : State), Inv s → stepAs c s = .next t →
    (s.scrPend = true → c ≠ .scrollHandler → t.scrPend = true) ∧
    (s.cdPend = true → c ≠ .countHandler → t.cdPend = true)

/-- 60_exceptions.md R225, 44_tick_scheduler.md R198: with both flags pending either handler may run
first, and the other's turn stays, unless the re-encode of COUNT_IRQ stops the block. -/
def Obligations.EitherHandlerMayRunFirst : Prop :=
  ∀ s : State, s.faultCode = .none → s.scrPend = true → s.cdPend = true →
    enabled .scrollHandler s = true ∧ enabled .countHandler s = true ∧
    (∃ t, stepAs .scrollHandler s = .next t ∧ enabled .countHandler t = true) ∧
    ∃ t, stepAs .countHandler s = .next t ∧
      (t.faultCode = .none → enabled .scrollHandler t = true)

/-- 42_scroll.md R141: in a weakly fair execution, from a state with SCR_EN = 1 on, SCROLL_EXPIRE is
taken again and again. -/
def Obligations.FairScrollTimerKeepsTicking : Prop :=
  ∀ e : Execution, e.WeaklyFair → ∀ n, (e.state n).scrEn = true →
    ∀ k, n ≤ k → ∃ m, k ≤ m ∧ e.agent m = .scrollTimer
end

