-- ==== Sys2Proof/Laws/State.lean ====
section
/-!
SUPPORT. What each named update of the state does to each field: one lemma per field and update.
-/

namespace Sys2Proof.Machine

@[simp] theorem raiseFault_frame (c : FaultCode) (w : Word) (s : State) :
    (raiseFault c w s).frame = s.frame := rfl
@[simp] theorem raiseFault_imgBuf (c : FaultCode) (w : Word) (s : State) :
    (raiseFault c w s).imgBuf = s.imgBuf := rfl
@[simp] theorem raiseFault_imgLen (c : FaultCode) (w : Word) (s : State) :
    (raiseFault c w s).imgLen = s.imgLen := rfl
@[simp] theorem raiseFault_curValid (c : FaultCode) (w : Word) (s : State) :
    (raiseFault c w s).curValid = s.curValid := rfl
@[simp] theorem raiseFault_curIdx (c : FaultCode) (w : Word) (s : State) :
    (raiseFault c w s).curIdx = s.curIdx := rfl
@[simp] theorem raiseFault_rowOut (c : FaultCode) (w : Word) (s : State) :
    (raiseFault c w s).rowOut = s.rowOut := rfl
@[simp] theorem raiseFault_colOut (c : FaultCode) (w : Word) (s : State) :
    (raiseFault c w s).colOut = s.colOut := rfl
@[simp] theorem raiseFault_initDone (c : FaultCode) (w : Word) (s : State) :
    (raiseFault c w s).initDone = s.initDone := rfl
@[simp] theorem raiseFault_loopRun (c : FaultCode) (w : Word) (s : State) :
    (raiseFault c w s).loopRun = s.loopRun := rfl
@[simp] theorem raiseFault_scrEn (c : FaultCode) (w : Word) (s : State) :
    (raiseFault c w s).scrEn = s.scrEn := rfl
@[simp] theorem raiseFault_scrPend (c : FaultCode) (w : Word) (s : State) :
    (raiseFault c w s).scrPend = s.scrPend := rfl
@[simp] theorem raiseFault_cdState (c : FaultCode) (w : Word) (s : State) :
    (raiseFault c w s).cdState = s.cdState := rfl
@[simp] theorem raiseFault_cdHours (c : FaultCode) (w : Word) (s : State) :
    (raiseFault c w s).cdHours = s.cdHours := rfl
@[simp] theorem raiseFault_cdSub (c : FaultCode) (w : Word) (s : State) :
    (raiseFault c w s).cdSub = s.cdSub := rfl
@[simp] theorem raiseFault_cdEn (c : FaultCode) (w : Word) (s : State) :
    (raiseFault c w s).cdEn = s.cdEn := rfl
@[simp] theorem raiseFault_cdPend (c : FaultCode) (w : Word) (s : State) :
    (raiseFault c w s).cdPend = s.cdPend := rfl
@[simp] theorem raiseFault_faultCode (c : FaultCode) (w : Word) (s : State) :
    (raiseFault c w s).faultCode = c := rfl
@[simp] theorem raiseFault_faultInfo (c : FaultCode) (w : Word) (s : State) :
    (raiseFault c w s).faultInfo = w := rfl
@[simp] theorem raiseFault_imask (c : FaultCode) (w : Word) (s : State) :
    (raiseFault c w s).imask = s.imask := rfl
@[simp] theorem raiseFault_drvPhase (c : FaultCode) (w : Word) (s : State) :
    (raiseFault c w s).drvPhase = s.drvPhase := rfl
@[simp] theorem raiseFault_drvC (c : FaultCode) (w : Word) (s : State) :
    (raiseFault c w s).drvC = s.drvC := rfl
@[simp] theorem raiseFault_drvR (c : FaultCode) (w : Word) (s : State) :
    (raiseFault c w s).drvR = s.drvR := rfl
@[simp] theorem raiseFault_drvPhys (c : FaultCode) (w : Word) (s : State) :
    (raiseFault c w s).drvPhys = s.drvPhys := rfl
@[simp] theorem raiseFault_hostQueue (c : FaultCode) (w : Word) (s : State) :
    (raiseFault c w s).hostQueue = s.hostQueue := rfl
@[simp] theorem raiseFault_sched (c : FaultCode) (w : Word) (s : State) :
    (raiseFault c w s).sched = s.sched := rfl
@[simp] theorem raiseFault_schedDraws (c : FaultCode) (w : Word) (s : State) :
    (raiseFault c w s).schedDraws = s.schedDraws := rfl
@[simp] theorem raiseFault_pinScript (c : FaultCode) (w : Word) (s : State) :
    (raiseFault c w s).pinScript = s.pinScript := rfl
@[simp] theorem raiseFault_pinDraws (c : FaultCode) (w : Word) (s : State) :
    (raiseFault c w s).pinDraws = s.pinDraws := rfl

@[simp] theorem maskInterrupts_frame (s : State) :
    (maskInterrupts s).frame = s.frame := rfl
@[simp] theorem maskInterrupts_imgBuf (s : State) :
    (maskInterrupts s).imgBuf = s.imgBuf := rfl
@[simp] theorem maskInterrupts_imgLen (s : State) :
    (maskInterrupts s).imgLen = s.imgLen := rfl
@[simp] theorem maskInterrupts_curValid (s : State) :
    (maskInterrupts s).curValid = s.curValid := rfl
@[simp] theorem maskInterrupts_curIdx (s : State) :
    (maskInterrupts s).curIdx = s.curIdx := rfl
@[simp] theorem maskInterrupts_rowOut (s : State) :
    (maskInterrupts s).rowOut = s.rowOut := rfl
@[simp] theorem maskInterrupts_colOut (s : State) :
    (maskInterrupts s).colOut = s.colOut := rfl
@[simp] theorem maskInterrupts_initDone (s : State) :
    (maskInterrupts s).initDone = s.initDone := rfl
@[simp] theorem maskInterrupts_loopRun (s : State) :
    (maskInterrupts s).loopRun = s.loopRun := rfl
@[simp] theorem maskInterrupts_scrEn (s : State) :
    (maskInterrupts s).scrEn = s.scrEn := rfl
@[simp] theorem maskInterrupts_scrPend (s : State) :
    (maskInterrupts s).scrPend = s.scrPend := rfl
@[simp] theorem maskInterrupts_cdState (s : State) :
    (maskInterrupts s).cdState = s.cdState := rfl
@[simp] theorem maskInterrupts_cdHours (s : State) :
    (maskInterrupts s).cdHours = s.cdHours := rfl
@[simp] theorem maskInterrupts_cdSub (s : State) :
    (maskInterrupts s).cdSub = s.cdSub := rfl
@[simp] theorem maskInterrupts_cdEn (s : State) :
    (maskInterrupts s).cdEn = s.cdEn := rfl
@[simp] theorem maskInterrupts_cdPend (s : State) :
    (maskInterrupts s).cdPend = s.cdPend := rfl
@[simp] theorem maskInterrupts_faultCode (s : State) :
    (maskInterrupts s).faultCode = s.faultCode := rfl
@[simp] theorem maskInterrupts_faultInfo (s : State) :
    (maskInterrupts s).faultInfo = s.faultInfo := rfl
@[simp] theorem maskInterrupts_imask (s : State) :
    (maskInterrupts s).imask = true := rfl
@[simp] theorem maskInterrupts_drvPhase (s : State) :
    (maskInterrupts s).drvPhase = s.drvPhase := rfl
@[simp] theorem maskInterrupts_drvC (s : State) :
    (maskInterrupts s).drvC = s.drvC := rfl
@[simp] theorem maskInterrupts_drvR (s : State) :
    (maskInterrupts s).drvR = s.drvR := rfl
@[simp] theorem maskInterrupts_drvPhys (s : State) :
    (maskInterrupts s).drvPhys = s.drvPhys := rfl
@[simp] theorem maskInterrupts_hostQueue (s : State) :
    (maskInterrupts s).hostQueue = s.hostQueue := rfl
@[simp] theorem maskInterrupts_sched (s : State) :
    (maskInterrupts s).sched = s.sched := rfl
@[simp] theorem maskInterrupts_schedDraws (s : State) :
    (maskInterrupts s).schedDraws = s.schedDraws := rfl
@[simp] theorem maskInterrupts_pinScript (s : State) :
    (maskInterrupts s).pinScript = s.pinScript := rfl
@[simp] theorem maskInterrupts_pinDraws (s : State) :
    (maskInterrupts s).pinDraws = s.pinDraws := rfl

@[simp] theorem unmaskInterrupts_frame (s : State) :
    (unmaskInterrupts s).frame = s.frame := rfl
@[simp] theorem unmaskInterrupts_imgBuf (s : State) :
    (unmaskInterrupts s).imgBuf = s.imgBuf := rfl
@[simp] theorem unmaskInterrupts_imgLen (s : State) :
    (unmaskInterrupts s).imgLen = s.imgLen := rfl
@[simp] theorem unmaskInterrupts_curValid (s : State) :
    (unmaskInterrupts s).curValid = s.curValid := rfl
@[simp] theorem unmaskInterrupts_curIdx (s : State) :
    (unmaskInterrupts s).curIdx = s.curIdx := rfl
@[simp] theorem unmaskInterrupts_rowOut (s : State) :
    (unmaskInterrupts s).rowOut = s.rowOut := rfl
@[simp] theorem unmaskInterrupts_colOut (s : State) :
    (unmaskInterrupts s).colOut = s.colOut := rfl
@[simp] theorem unmaskInterrupts_initDone (s : State) :
    (unmaskInterrupts s).initDone = s.initDone := rfl
@[simp] theorem unmaskInterrupts_loopRun (s : State) :
    (unmaskInterrupts s).loopRun = s.loopRun := rfl
@[simp] theorem unmaskInterrupts_scrEn (s : State) :
    (unmaskInterrupts s).scrEn = s.scrEn := rfl
@[simp] theorem unmaskInterrupts_scrPend (s : State) :
    (unmaskInterrupts s).scrPend = s.scrPend := rfl
@[simp] theorem unmaskInterrupts_cdState (s : State) :
    (unmaskInterrupts s).cdState = s.cdState := rfl
@[simp] theorem unmaskInterrupts_cdHours (s : State) :
    (unmaskInterrupts s).cdHours = s.cdHours := rfl
@[simp] theorem unmaskInterrupts_cdSub (s : State) :
    (unmaskInterrupts s).cdSub = s.cdSub := rfl
@[simp] theorem unmaskInterrupts_cdEn (s : State) :
    (unmaskInterrupts s).cdEn = s.cdEn := rfl
@[simp] theorem unmaskInterrupts_cdPend (s : State) :
    (unmaskInterrupts s).cdPend = s.cdPend := rfl
@[simp] theorem unmaskInterrupts_faultCode (s : State) :
    (unmaskInterrupts s).faultCode = s.faultCode := rfl
@[simp] theorem unmaskInterrupts_faultInfo (s : State) :
    (unmaskInterrupts s).faultInfo = s.faultInfo := rfl
@[simp] theorem unmaskInterrupts_imask (s : State) :
    (unmaskInterrupts s).imask = false := rfl
@[simp] theorem unmaskInterrupts_drvPhase (s : State) :
    (unmaskInterrupts s).drvPhase = s.drvPhase := rfl
@[simp] theorem unmaskInterrupts_drvC (s : State) :
    (unmaskInterrupts s).drvC = s.drvC := rfl
@[simp] theorem unmaskInterrupts_drvR (s : State) :
    (unmaskInterrupts s).drvR = s.drvR := rfl
@[simp] theorem unmaskInterrupts_drvPhys (s : State) :
    (unmaskInterrupts s).drvPhys = s.drvPhys := rfl
@[simp] theorem unmaskInterrupts_hostQueue (s : State) :
    (unmaskInterrupts s).hostQueue = s.hostQueue := rfl
@[simp] theorem unmaskInterrupts_sched (s : State) :
    (unmaskInterrupts s).sched = s.sched := rfl
@[simp] theorem unmaskInterrupts_schedDraws (s : State) :
    (unmaskInterrupts s).schedDraws = s.schedDraws := rfl
@[simp] theorem unmaskInterrupts_pinScript (s : State) :
    (unmaskInterrupts s).pinScript = s.pinScript := rfl
@[simp] theorem unmaskInterrupts_pinDraws (s : State) :
    (unmaskInterrupts s).pinDraws = s.pinDraws := rfl

@[simp] theorem setPending_scroll_frame (s : State) :
    (setPending .scroll s).frame = s.frame := rfl
@[simp] theorem setPending_scroll_imgBuf (s : State) :
    (setPending .scroll s).imgBuf = s.imgBuf := rfl
@[simp] theorem setPending_scroll_imgLen (s : State) :
    (setPending .scroll s).imgLen = s.imgLen := rfl
@[simp] theorem setPending_scroll_curValid (s : State) :
    (setPending .scroll s).curValid = s.curValid := rfl
@[simp] theorem setPending_scroll_curIdx (s : State) :
    (setPending .scroll s).curIdx = s.curIdx := rfl
@[simp] theorem setPending_scroll_rowOut (s : State) :
    (setPending .scroll s).rowOut = s.rowOut := rfl
@[simp] theorem setPending_scroll_colOut (s : State) :
    (setPending .scroll s).colOut = s.colOut := rfl
@[simp] theorem setPending_scroll_initDone (s : State) :
    (setPending .scroll s).initDone = s.initDone := rfl
@[simp] theorem setPending_scroll_loopRun (s : State) :
    (setPending .scroll s).loopRun = s.loopRun := rfl
@[simp] theorem setPending_scroll_scrEn (s : State) :
    (setPending .scroll s).scrEn = s.scrEn := rfl
@[simp] theorem setPending_scroll_scrPend (s : State) :
    (setPending .scroll s).scrPend = true := rfl
@[simp] theorem setPending_scroll_cdState (s : State) :
    (setPending .scroll s).cdState = s.cdState := rfl
@[simp] theorem setPending_scroll_cdHours (s : State) :
    (setPending .scroll s).cdHours = s.cdHours := rfl
@[simp] theorem setPending_scroll_cdSub (s : State) :
    (setPending .scroll s).cdSub = s.cdSub := rfl
@[simp] theorem setPending_scroll_cdEn (s : State) :
    (setPending .scroll s).cdEn = s.cdEn := rfl
@[simp] theorem setPending_scroll_cdPend (s : State) :
    (setPending .scroll s).cdPend = s.cdPend := rfl
@[simp] theorem setPending_scroll_faultCode (s : State) :
    (setPending .scroll s).faultCode = s.faultCode := rfl
@[simp] theorem setPending_scroll_faultInfo (s : State) :
    (setPending .scroll s).faultInfo = s.faultInfo := rfl
@[simp] theorem setPending_scroll_imask (s : State) :
    (setPending .scroll s).imask = s.imask := rfl
@[simp] theorem setPending_scroll_drvPhase (s : State) :
    (setPending .scroll s).drvPhase = s.drvPhase := rfl
@[simp] theorem setPending_scroll_drvC (s : State) :
    (setPending .scroll s).drvC = s.drvC := rfl
@[simp] theorem setPending_scroll_drvR (s : State) :
    (setPending .scroll s).drvR = s.drvR := rfl
@[simp] theorem setPending_scroll_drvPhys (s : State) :
    (setPending .scroll s).drvPhys = s.drvPhys := rfl
@[simp] theorem setPending_scroll_hostQueue (s : State) :
    (setPending .scroll s).hostQueue = s.hostQueue := rfl
@[simp] theorem setPending_scroll_sched (s : State) :
    (setPending .scroll s).sched = s.sched := rfl
@[simp] theorem setPending_scroll_schedDraws (s : State) :
    (setPending .scroll s).schedDraws = s.schedDraws := rfl
@[simp] theorem setPending_scroll_pinScript (s : State) :
    (setPending .scroll s).pinScript = s.pinScript := rfl
@[simp] theorem setPending_scroll_pinDraws (s : State) :
    (setPending .scroll s).pinDraws = s.pinDraws := rfl

@[simp] theorem setPending_countdown_frame (s : State) :
    (setPending .countdown s).frame = s.frame := rfl
@[simp] theorem setPending_countdown_imgBuf (s : State) :
    (setPending .countdown s).imgBuf = s.imgBuf := rfl
@[simp] theorem setPending_countdown_imgLen (s : State) :
    (setPending .countdown s).imgLen = s.imgLen := rfl
@[simp] theorem setPending_countdown_curValid (s : State) :
    (setPending .countdown s).curValid = s.curValid := rfl
@[simp] theorem setPending_countdown_curIdx (s : State) :
    (setPending .countdown s).curIdx = s.curIdx := rfl
@[simp] theorem setPending_countdown_rowOut (s : State) :
    (setPending .countdown s).rowOut = s.rowOut := rfl
@[simp] theorem setPending_countdown_colOut (s : State) :
    (setPending .countdown s).colOut = s.colOut := rfl
@[simp] theorem setPending_countdown_initDone (s : State) :
    (setPending .countdown s).initDone = s.initDone := rfl
@[simp] theorem setPending_countdown_loopRun (s : State) :
    (setPending .countdown s).loopRun = s.loopRun := rfl
@[simp] theorem setPending_countdown_scrEn (s : State) :
    (setPending .countdown s).scrEn = s.scrEn := rfl
@[simp] theorem setPending_countdown_scrPend (s : State) :
    (setPending .countdown s).scrPend = s.scrPend := rfl
@[simp] theorem setPending_countdown_cdState (s : State) :
    (setPending .countdown s).cdState = s.cdState := rfl
@[simp] theorem setPending_countdown_cdHours (s : State) :
    (setPending .countdown s).cdHours = s.cdHours := rfl
@[simp] theorem setPending_countdown_cdSub (s : State) :
    (setPending .countdown s).cdSub = s.cdSub := rfl
@[simp] theorem setPending_countdown_cdEn (s : State) :
    (setPending .countdown s).cdEn = s.cdEn := rfl
@[simp] theorem setPending_countdown_cdPend (s : State) :
    (setPending .countdown s).cdPend = true := rfl
@[simp] theorem setPending_countdown_faultCode (s : State) :
    (setPending .countdown s).faultCode = s.faultCode := rfl
@[simp] theorem setPending_countdown_faultInfo (s : State) :
    (setPending .countdown s).faultInfo = s.faultInfo := rfl
@[simp] theorem setPending_countdown_imask (s : State) :
    (setPending .countdown s).imask = s.imask := rfl
@[simp] theorem setPending_countdown_drvPhase (s : State) :
    (setPending .countdown s).drvPhase = s.drvPhase := rfl
@[simp] theorem setPending_countdown_drvC (s : State) :
    (setPending .countdown s).drvC = s.drvC := rfl
@[simp] theorem setPending_countdown_drvR (s : State) :
    (setPending .countdown s).drvR = s.drvR := rfl
@[simp] theorem setPending_countdown_drvPhys (s : State) :
    (setPending .countdown s).drvPhys = s.drvPhys := rfl
@[simp] theorem setPending_countdown_hostQueue (s : State) :
    (setPending .countdown s).hostQueue = s.hostQueue := rfl
@[simp] theorem setPending_countdown_sched (s : State) :
    (setPending .countdown s).sched = s.sched := rfl
@[simp] theorem setPending_countdown_schedDraws (s : State) :
    (setPending .countdown s).schedDraws = s.schedDraws := rfl
@[simp] theorem setPending_countdown_pinScript (s : State) :
    (setPending .countdown s).pinScript = s.pinScript := rfl
@[simp] theorem setPending_countdown_pinDraws (s : State) :
    (setPending .countdown s).pinDraws = s.pinDraws := rfl

@[simp] theorem interruptReturn_scroll_frame (s : State) :
    (interruptReturn .scroll s).frame = s.frame := rfl
@[simp] theorem interruptReturn_scroll_imgBuf (s : State) :
    (interruptReturn .scroll s).imgBuf = s.imgBuf := rfl
@[simp] theorem interruptReturn_scroll_imgLen (s : State) :
    (interruptReturn .scroll s).imgLen = s.imgLen := rfl
@[simp] theorem interruptReturn_scroll_curValid (s : State) :
    (interruptReturn .scroll s).curValid = s.curValid := rfl
@[simp] theorem interruptReturn_scroll_curIdx (s : State) :
    (interruptReturn .scroll s).curIdx = s.curIdx := rfl
@[simp] theorem interruptReturn_scroll_rowOut (s : State) :
    (interruptReturn .scroll s).rowOut = s.rowOut := rfl
@[simp] theorem interruptReturn_scroll_colOut (s : State) :
    (interruptReturn .scroll s).colOut = s.colOut := rfl
@[simp] theorem interruptReturn_scroll_initDone (s : State) :
    (interruptReturn .scroll s).initDone = s.initDone := rfl
@[simp] theorem interruptReturn_scroll_loopRun (s : State) :
    (interruptReturn .scroll s).loopRun = s.loopRun := rfl
@[simp] theorem interruptReturn_scroll_scrEn (s : State) :
    (interruptReturn .scroll s).scrEn = s.scrEn := rfl
@[simp] theorem interruptReturn_scroll_scrPend (s : State) :
    (interruptReturn .scroll s).scrPend = false := rfl
@[simp] theorem interruptReturn_scroll_cdState (s : State) :
    (interruptReturn .scroll s).cdState = s.cdState := rfl
@[simp] theorem interruptReturn_scroll_cdHours (s : State) :
    (interruptReturn .scroll s).cdHours = s.cdHours := rfl
@[simp] theorem interruptReturn_scroll_cdSub (s : State) :
    (interruptReturn .scroll s).cdSub = s.cdSub := rfl
@[simp] theorem interruptReturn_scroll_cdEn (s : State) :
    (interruptReturn .scroll s).cdEn = s.cdEn := rfl
@[simp] theorem interruptReturn_scroll_cdPend (s : State) :
    (interruptReturn .scroll s).cdPend = s.cdPend := rfl
@[simp] theorem interruptReturn_scroll_faultCode (s : State) :
    (interruptReturn .scroll s).faultCode = s.faultCode := rfl
@[simp] theorem interruptReturn_scroll_faultInfo (s : State) :
    (interruptReturn .scroll s).faultInfo = s.faultInfo := rfl
@[simp] theorem interruptReturn_scroll_imask (s : State) :
    (interruptReturn .scroll s).imask = s.imask := rfl
@[simp] theorem interruptReturn_scroll_drvPhase (s : State) :
    (interruptReturn .scroll s).drvPhase = s.drvPhase := rfl
@[simp] theorem interruptReturn_scroll_drvC (s : State) :
    (interruptReturn .scroll s).drvC = s.drvC := rfl
@[simp] theorem interruptReturn_scroll_drvR (s : State) :
    (interruptReturn .scroll s).drvR = s.drvR := rfl
@[simp] theorem interruptReturn_scroll_drvPhys (s : State) :
    (interruptReturn .scroll s).drvPhys = s.drvPhys := rfl
@[simp] theorem interruptReturn_scroll_hostQueue (s : State) :
    (interruptReturn .scroll s).hostQueue = s.hostQueue := rfl
@[simp] theorem interruptReturn_scroll_sched (s : State) :
    (interruptReturn .scroll s).sched = s.sched := rfl
@[simp] theorem interruptReturn_scroll_schedDraws (s : State) :
    (interruptReturn .scroll s).schedDraws = s.schedDraws := rfl
@[simp] theorem interruptReturn_scroll_pinScript (s : State) :
    (interruptReturn .scroll s).pinScript = s.pinScript := rfl
@[simp] theorem interruptReturn_scroll_pinDraws (s : State) :
    (interruptReturn .scroll s).pinDraws = s.pinDraws := rfl

@[simp] theorem interruptReturn_countdown_frame (s : State) :
    (interruptReturn .countdown s).frame = s.frame := rfl
@[simp] theorem interruptReturn_countdown_imgBuf (s : State) :
    (interruptReturn .countdown s).imgBuf = s.imgBuf := rfl
@[simp] theorem interruptReturn_countdown_imgLen (s : State) :
    (interruptReturn .countdown s).imgLen = s.imgLen := rfl
@[simp] theorem interruptReturn_countdown_curValid (s : State) :
    (interruptReturn .countdown s).curValid = s.curValid := rfl
@[simp] theorem interruptReturn_countdown_curIdx (s : State) :
    (interruptReturn .countdown s).curIdx = s.curIdx := rfl
@[simp] theorem interruptReturn_countdown_rowOut (s : State) :
    (interruptReturn .countdown s).rowOut = s.rowOut := rfl
@[simp] theorem interruptReturn_countdown_colOut (s : State) :
    (interruptReturn .countdown s).colOut = s.colOut := rfl
@[simp] theorem interruptReturn_countdown_initDone (s : State) :
    (interruptReturn .countdown s).initDone = s.initDone := rfl
@[simp] theorem interruptReturn_countdown_loopRun (s : State) :
    (interruptReturn .countdown s).loopRun = s.loopRun := rfl
@[simp] theorem interruptReturn_countdown_scrEn (s : State) :
    (interruptReturn .countdown s).scrEn = s.scrEn := rfl
@[simp] theorem interruptReturn_countdown_scrPend (s : State) :
    (interruptReturn .countdown s).scrPend = s.scrPend := rfl
@[simp] theorem interruptReturn_countdown_cdState (s : State) :
    (interruptReturn .countdown s).cdState = s.cdState := rfl
@[simp] theorem interruptReturn_countdown_cdHours (s : State) :
    (interruptReturn .countdown s).cdHours = s.cdHours := rfl
@[simp] theorem interruptReturn_countdown_cdSub (s : State) :
    (interruptReturn .countdown s).cdSub = s.cdSub := rfl
@[simp] theorem interruptReturn_countdown_cdEn (s : State) :
    (interruptReturn .countdown s).cdEn = s.cdEn := rfl
@[simp] theorem interruptReturn_countdown_cdPend (s : State) :
    (interruptReturn .countdown s).cdPend = false := rfl
@[simp] theorem interruptReturn_countdown_faultCode (s : State) :
    (interruptReturn .countdown s).faultCode = s.faultCode := rfl
@[simp] theorem interruptReturn_countdown_faultInfo (s : State) :
    (interruptReturn .countdown s).faultInfo = s.faultInfo := rfl
@[simp] theorem interruptReturn_countdown_imask (s : State) :
    (interruptReturn .countdown s).imask = s.imask := rfl
@[simp] theorem interruptReturn_countdown_drvPhase (s : State) :
    (interruptReturn .countdown s).drvPhase = s.drvPhase := rfl
@[simp] theorem interruptReturn_countdown_drvC (s : State) :
    (interruptReturn .countdown s).drvC = s.drvC := rfl
@[simp] theorem interruptReturn_countdown_drvR (s : State) :
    (interruptReturn .countdown s).drvR = s.drvR := rfl
@[simp] theorem interruptReturn_countdown_drvPhys (s : State) :
    (interruptReturn .countdown s).drvPhys = s.drvPhys := rfl
@[simp] theorem interruptReturn_countdown_hostQueue (s : State) :
    (interruptReturn .countdown s).hostQueue = s.hostQueue := rfl
@[simp] theorem interruptReturn_countdown_sched (s : State) :
    (interruptReturn .countdown s).sched = s.sched := rfl
@[simp] theorem interruptReturn_countdown_schedDraws (s : State) :
    (interruptReturn .countdown s).schedDraws = s.schedDraws := rfl
@[simp] theorem interruptReturn_countdown_pinScript (s : State) :
    (interruptReturn .countdown s).pinScript = s.pinScript := rfl
@[simp] theorem interruptReturn_countdown_pinDraws (s : State) :
    (interruptReturn .countdown s).pinDraws = s.pinDraws := rfl

@[simp] theorem setOut_row_frame (i : Fin 9) (x : Level) (s : State) :
    (setOut (.row i) x s).frame = s.frame := rfl
@[simp] theorem setOut_row_imgBuf (i : Fin 9) (x : Level) (s : State) :
    (setOut (.row i) x s).imgBuf = s.imgBuf := rfl
@[simp] theorem setOut_row_imgLen (i : Fin 9) (x : Level) (s : State) :
    (setOut (.row i) x s).imgLen = s.imgLen := rfl
@[simp] theorem setOut_row_curValid (i : Fin 9) (x : Level) (s : State) :
    (setOut (.row i) x s).curValid = s.curValid := rfl
@[simp] theorem setOut_row_curIdx (i : Fin 9) (x : Level) (s : State) :
    (setOut (.row i) x s).curIdx = s.curIdx := rfl
@[simp] theorem setOut_row_rowOut (i : Fin 9) (x : Level) (s : State) :
    (setOut (.row i) x s).rowOut = s.rowOut.set i x := rfl
@[simp] theorem setOut_row_colOut (i : Fin 9) (x : Level) (s : State) :
    (setOut (.row i) x s).colOut = s.colOut := rfl
@[simp] theorem setOut_row_initDone (i : Fin 9) (x : Level) (s : State) :
    (setOut (.row i) x s).initDone = s.initDone := rfl
@[simp] theorem setOut_row_loopRun (i : Fin 9) (x : Level) (s : State) :
    (setOut (.row i) x s).loopRun = s.loopRun := rfl
@[simp] theorem setOut_row_scrEn (i : Fin 9) (x : Level) (s : State) :
    (setOut (.row i) x s).scrEn = s.scrEn := rfl
@[simp] theorem setOut_row_scrPend (i : Fin 9) (x : Level) (s : State) :
    (setOut (.row i) x s).scrPend = s.scrPend := rfl
@[simp] theorem setOut_row_cdState (i : Fin 9) (x : Level) (s : State) :
    (setOut (.row i) x s).cdState = s.cdState := rfl
@[simp] theorem setOut_row_cdHours (i : Fin 9) (x : Level) (s : State) :
    (setOut (.row i) x s).cdHours = s.cdHours := rfl
@[simp] theorem setOut_row_cdSub (i : Fin 9) (x : Level) (s : State) :
    (setOut (.row i) x s).cdSub = s.cdSub := rfl
@[simp] theorem setOut_row_cdEn (i : Fin 9) (x : Level) (s : State) :
    (setOut (.row i) x s).cdEn = s.cdEn := rfl
@[simp] theorem setOut_row_cdPend (i : Fin 9) (x : Level) (s : State) :
    (setOut (.row i) x s).cdPend = s.cdPend := rfl
@[simp] theorem setOut_row_faultCode (i : Fin 9) (x : Level) (s : State) :
    (setOut (.row i) x s).faultCode = s.faultCode := rfl
@[simp] theorem setOut_row_faultInfo (i : Fin 9) (x : Level) (s : State) :
    (setOut (.row i) x s).faultInfo = s.faultInfo := rfl
@[simp] theorem setOut_row_imask (i : Fin 9) (x : Level) (s : State) :
    (setOut (.row i) x s).imask = s.imask := rfl
@[simp] theorem setOut_row_drvPhase (i : Fin 9) (x : Level) (s : State) :
    (setOut (.row i) x s).drvPhase = s.drvPhase := rfl
@[simp] theorem setOut_row_drvC (i : Fin 9) (x : Level) (s : State) :
    (setOut (.row i) x s).drvC = s.drvC := rfl
@[simp] theorem setOut_row_drvR (i : Fin 9) (x : Level) (s : State) :
    (setOut (.row i) x s).drvR = s.drvR := rfl
@[simp] theorem setOut_row_drvPhys (i : Fin 9) (x : Level) (s : State) :
    (setOut (.row i) x s).drvPhys = s.drvPhys := rfl
@[simp] theorem setOut_row_hostQueue (i : Fin 9) (x : Level) (s : State) :
    (setOut (.row i) x s).hostQueue = s.hostQueue := rfl
@[simp] theorem setOut_row_sched (i : Fin 9) (x : Level) (s : State) :
    (setOut (.row i) x s).sched = s.sched := rfl
@[simp] theorem setOut_row_schedDraws (i : Fin 9) (x : Level) (s : State) :
    (setOut (.row i) x s).schedDraws = s.schedDraws := rfl
@[simp] theorem setOut_row_pinScript (i : Fin 9) (x : Level) (s : State) :
    (setOut (.row i) x s).pinScript = s.pinScript := rfl
@[simp] theorem setOut_row_pinDraws (i : Fin 9) (x : Level) (s : State) :
    (setOut (.row i) x s).pinDraws = s.pinDraws := rfl

@[simp] theorem setOut_col_frame (j : Fin 3) (x : Level) (s : State) :
    (setOut (.col j) x s).frame = s.frame := rfl
@[simp] theorem setOut_col_imgBuf (j : Fin 3) (x : Level) (s : State) :
    (setOut (.col j) x s).imgBuf = s.imgBuf := rfl
@[simp] theorem setOut_col_imgLen (j : Fin 3) (x : Level) (s : State) :
    (setOut (.col j) x s).imgLen = s.imgLen := rfl
@[simp] theorem setOut_col_curValid (j : Fin 3) (x : Level) (s : State) :
    (setOut (.col j) x s).curValid = s.curValid := rfl
@[simp] theorem setOut_col_curIdx (j : Fin 3) (x : Level) (s : State) :
    (setOut (.col j) x s).curIdx = s.curIdx := rfl
@[simp] theorem setOut_col_rowOut (j : Fin 3) (x : Level) (s : State) :
    (setOut (.col j) x s).rowOut = s.rowOut := rfl
@[simp] theorem setOut_col_colOut (j : Fin 3) (x : Level) (s : State) :
    (setOut (.col j) x s).colOut = s.colOut.set j x := rfl
@[simp] theorem setOut_col_initDone (j : Fin 3) (x : Level) (s : State) :
    (setOut (.col j) x s).initDone = s.initDone := rfl
@[simp] theorem setOut_col_loopRun (j : Fin 3) (x : Level) (s : State) :
    (setOut (.col j) x s).loopRun = s.loopRun := rfl
@[simp] theorem setOut_col_scrEn (j : Fin 3) (x : Level) (s : State) :
    (setOut (.col j) x s).scrEn = s.scrEn := rfl
@[simp] theorem setOut_col_scrPend (j : Fin 3) (x : Level) (s : State) :
    (setOut (.col j) x s).scrPend = s.scrPend := rfl
@[simp] theorem setOut_col_cdState (j : Fin 3) (x : Level) (s : State) :
    (setOut (.col j) x s).cdState = s.cdState := rfl
@[simp] theorem setOut_col_cdHours (j : Fin 3) (x : Level) (s : State) :
    (setOut (.col j) x s).cdHours = s.cdHours := rfl
@[simp] theorem setOut_col_cdSub (j : Fin 3) (x : Level) (s : State) :
    (setOut (.col j) x s).cdSub = s.cdSub := rfl
@[simp] theorem setOut_col_cdEn (j : Fin 3) (x : Level) (s : State) :
    (setOut (.col j) x s).cdEn = s.cdEn := rfl
@[simp] theorem setOut_col_cdPend (j : Fin 3) (x : Level) (s : State) :
    (setOut (.col j) x s).cdPend = s.cdPend := rfl
@[simp] theorem setOut_col_faultCode (j : Fin 3) (x : Level) (s : State) :
    (setOut (.col j) x s).faultCode = s.faultCode := rfl
@[simp] theorem setOut_col_faultInfo (j : Fin 3) (x : Level) (s : State) :
    (setOut (.col j) x s).faultInfo = s.faultInfo := rfl
@[simp] theorem setOut_col_imask (j : Fin 3) (x : Level) (s : State) :
    (setOut (.col j) x s).imask = s.imask := rfl
@[simp] theorem setOut_col_drvPhase (j : Fin 3) (x : Level) (s : State) :
    (setOut (.col j) x s).drvPhase = s.drvPhase := rfl
@[simp] theorem setOut_col_drvC (j : Fin 3) (x : Level) (s : State) :
    (setOut (.col j) x s).drvC = s.drvC := rfl
@[simp] theorem setOut_col_drvR (j : Fin 3) (x : Level) (s : State) :
    (setOut (.col j) x s).drvR = s.drvR := rfl
@[simp] theorem setOut_col_drvPhys (j : Fin 3) (x : Level) (s : State) :
    (setOut (.col j) x s).drvPhys = s.drvPhys := rfl
@[simp] theorem setOut_col_hostQueue (j : Fin 3) (x : Level) (s : State) :
    (setOut (.col j) x s).hostQueue = s.hostQueue := rfl
@[simp] theorem setOut_col_sched (j : Fin 3) (x : Level) (s : State) :
    (setOut (.col j) x s).sched = s.sched := rfl
@[simp] theorem setOut_col_schedDraws (j : Fin 3) (x : Level) (s : State) :
    (setOut (.col j) x s).schedDraws = s.schedDraws := rfl
@[simp] theorem setOut_col_pinScript (j : Fin 3) (x : Level) (s : State) :
    (setOut (.col j) x s).pinScript = s.pinScript := rfl
@[simp] theorem setOut_col_pinDraws (j : Fin 3) (x : Level) (s : State) :
    (setOut (.col j) x s).pinDraws = s.pinDraws := rfl

@[simp] theorem storeColumn_frame (v : ColImage) (s : State) :
    (storeColumn v s).frame = s.frame := rfl
@[simp] theorem storeColumn_imgBuf (v : ColImage) (s : State) :
    (storeColumn v s).imgBuf = s.imgBuf.set s.imgLen v := rfl
@[simp] theorem storeColumn_imgLen (v : ColImage) (s : State) :
    (storeColumn v s).imgLen = s.imgLen + 1 := rfl
@[simp] theorem storeColumn_curValid (v : ColImage) (s : State) :
    (storeColumn v s).curValid = s.curValid := rfl
@[simp] theorem storeColumn_curIdx (v : ColImage) (s : State) :
    (storeColumn v s).curIdx = s.curIdx := rfl
@[simp] theorem storeColumn_rowOut (v : ColImage) (s : State) :
    (storeColumn v s).rowOut = s.rowOut := rfl
@[simp] theorem storeColumn_colOut (v : ColImage) (s : State) :
    (storeColumn v s).colOut = s.colOut := rfl
@[simp] theorem storeColumn_initDone (v : ColImage) (s : State) :
    (storeColumn v s).initDone = s.initDone := rfl
@[simp] theorem storeColumn_loopRun (v : ColImage) (s : State) :
    (storeColumn v s).loopRun = s.loopRun := rfl
@[simp] theorem storeColumn_scrEn (v : ColImage) (s : State) :
    (storeColumn v s).scrEn = s.scrEn := rfl
@[simp] theorem storeColumn_scrPend (v : ColImage) (s : State) :
    (storeColumn v s).scrPend = s.scrPend := rfl
@[simp] theorem storeColumn_cdState (v : ColImage) (s : State) :
    (storeColumn v s).cdState = s.cdState := rfl
@[simp] theorem storeColumn_cdHours (v : ColImage) (s : State) :
    (storeColumn v s).cdHours = s.cdHours := rfl
@[simp] theorem storeColumn_cdSub (v : ColImage) (s : State) :
    (storeColumn v s).cdSub = s.cdSub := rfl
@[simp] theorem storeColumn_cdEn (v : ColImage) (s : State) :
    (storeColumn v s).cdEn = s.cdEn := rfl
@[simp] theorem storeColumn_cdPend (v : ColImage) (s : State) :
    (storeColumn v s).cdPend = s.cdPend := rfl
@[simp] theorem storeColumn_faultCode (v : ColImage) (s : State) :
    (storeColumn v s).faultCode = s.faultCode := rfl
@[simp] theorem storeColumn_faultInfo (v : ColImage) (s : State) :
    (storeColumn v s).faultInfo = s.faultInfo := rfl
@[simp] theorem storeColumn_imask (v : ColImage) (s : State) :
    (storeColumn v s).imask = s.imask := rfl
@[simp] theorem storeColumn_drvPhase (v : ColImage) (s : State) :
    (storeColumn v s).drvPhase = s.drvPhase := rfl
@[simp] theorem storeColumn_drvC (v : ColImage) (s : State) :
    (storeColumn v s).drvC = s.drvC := rfl
@[simp] theorem storeColumn_drvR (v : ColImage) (s : State) :
    (storeColumn v s).drvR = s.drvR := rfl
@[simp] theorem storeColumn_drvPhys (v : ColImage) (s : State) :
    (storeColumn v s).drvPhys = s.drvPhys := rfl
@[simp] theorem storeColumn_hostQueue (v : ColImage) (s : State) :
    (storeColumn v s).hostQueue = s.hostQueue := rfl
@[simp] theorem storeColumn_sched (v : ColImage) (s : State) :
    (storeColumn v s).sched = s.sched := rfl
@[simp] theorem storeColumn_schedDraws (v : ColImage) (s : State) :
    (storeColumn v s).schedDraws = s.schedDraws := rfl
@[simp] theorem storeColumn_pinScript (v : ColImage) (s : State) :
    (storeColumn v s).pinScript = s.pinScript := rfl
@[simp] theorem storeColumn_pinDraws (v : ColImage) (s : State) :
    (storeColumn v s).pinDraws = s.pinDraws := rfl

@[simp] theorem beginContent_frame (s : State) :
    (beginContent s).frame = s.frame := rfl
@[simp] theorem beginContent_imgBuf (s : State) :
    (beginContent s).imgBuf = s.imgBuf := rfl
@[simp] theorem beginContent_imgLen (s : State) :
    (beginContent s).imgLen = 0 := rfl
@[simp] theorem beginContent_curValid (s : State) :
    (beginContent s).curValid = false := rfl
@[simp] theorem beginContent_curIdx (s : State) :
    (beginContent s).curIdx = s.curIdx := rfl
@[simp] theorem beginContent_rowOut (s : State) :
    (beginContent s).rowOut = s.rowOut := rfl
@[simp] theorem beginContent_colOut (s : State) :
    (beginContent s).colOut = s.colOut := rfl
@[simp] theorem beginContent_initDone (s : State) :
    (beginContent s).initDone = s.initDone := rfl
@[simp] theorem beginContent_loopRun (s : State) :
    (beginContent s).loopRun = s.loopRun := rfl
@[simp] theorem beginContent_scrEn (s : State) :
    (beginContent s).scrEn = s.scrEn := rfl
@[simp] theorem beginContent_scrPend (s : State) :
    (beginContent s).scrPend = s.scrPend := rfl
@[simp] theorem beginContent_cdState (s : State) :
    (beginContent s).cdState = s.cdState := rfl
@[simp] theorem beginContent_cdHours (s : State) :
    (beginContent s).cdHours = s.cdHours := rfl
@[simp] theorem beginContent_cdSub (s : State) :
    (beginContent s).cdSub = s.cdSub := rfl
@[simp] theorem beginContent_cdEn (s : State) :
    (beginContent s).cdEn = s.cdEn := rfl
@[simp] theorem beginContent_cdPend (s : State) :
    (beginContent s).cdPend = s.cdPend := rfl
@[simp] theorem beginContent_faultCode (s : State) :
    (beginContent s).faultCode = s.faultCode := rfl
@[simp] theorem beginContent_faultInfo (s : State) :
    (beginContent s).faultInfo = s.faultInfo := rfl
@[simp] theorem beginContent_imask (s : State) :
    (beginContent s).imask = s.imask := rfl
@[simp] theorem beginContent_drvPhase (s : State) :
    (beginContent s).drvPhase = s.drvPhase := rfl
@[simp] theorem beginContent_drvC (s : State) :
    (beginContent s).drvC = s.drvC := rfl
@[simp] theorem beginContent_drvR (s : State) :
    (beginContent s).drvR = s.drvR := rfl
@[simp] theorem beginContent_drvPhys (s : State) :
    (beginContent s).drvPhys = s.drvPhys := rfl
@[simp] theorem beginContent_hostQueue (s : State) :
    (beginContent s).hostQueue = s.hostQueue := rfl
@[simp] theorem beginContent_sched (s : State) :
    (beginContent s).sched = s.sched := rfl
@[simp] theorem beginContent_schedDraws (s : State) :
    (beginContent s).schedDraws = s.schedDraws := rfl
@[simp] theorem beginContent_pinScript (s : State) :
    (beginContent s).pinScript = s.pinScript := rfl
@[simp] theorem beginContent_pinDraws (s : State) :
    (beginContent s).pinDraws = s.pinDraws := rfl

@[simp] theorem loadSnapshot_frame (p : Params) (s : State) :
    (loadSnapshot p s).frame = s.frame := rfl
@[simp] theorem loadSnapshot_imgBuf (p : Params) (s : State) :
    (loadSnapshot p s).imgBuf = s.imgBuf := rfl
@[simp] theorem loadSnapshot_imgLen (p : Params) (s : State) :
    (loadSnapshot p s).imgLen = s.imgLen := rfl
@[simp] theorem loadSnapshot_curValid (p : Params) (s : State) :
    (loadSnapshot p s).curValid = s.curValid := rfl
@[simp] theorem loadSnapshot_curIdx (p : Params) (s : State) :
    (loadSnapshot p s).curIdx = s.curIdx := rfl
@[simp] theorem loadSnapshot_rowOut (p : Params) (s : State) :
    (loadSnapshot p s).rowOut = s.rowOut := rfl
@[simp] theorem loadSnapshot_colOut (p : Params) (s : State) :
    (loadSnapshot p s).colOut = s.colOut := rfl
@[simp] theorem loadSnapshot_initDone (p : Params) (s : State) :
    (loadSnapshot p s).initDone = s.initDone := rfl
@[simp] theorem loadSnapshot_loopRun (p : Params) (s : State) :
    (loadSnapshot p s).loopRun = s.loopRun := rfl
@[simp] theorem loadSnapshot_scrEn (p : Params) (s : State) :
    (loadSnapshot p s).scrEn = s.scrEn := rfl
@[simp] theorem loadSnapshot_scrPend (p : Params) (s : State) :
    (loadSnapshot p s).scrPend = s.scrPend := rfl
@[simp] theorem loadSnapshot_cdState (p : Params) (s : State) :
    (loadSnapshot p s).cdState = s.cdState := rfl
@[simp] theorem loadSnapshot_cdHours (p : Params) (s : State) :
    (loadSnapshot p s).cdHours = s.cdHours := rfl
@[simp] theorem loadSnapshot_cdSub (p : Params) (s : State) :
    (loadSnapshot p s).cdSub = s.cdSub := rfl
@[simp] theorem loadSnapshot_cdEn (p : Params) (s : State) :
    (loadSnapshot p s).cdEn = s.cdEn := rfl
@[simp] theorem loadSnapshot_cdPend (p : Params) (s : State) :
    (loadSnapshot p s).cdPend = s.cdPend := rfl
@[simp] theorem loadSnapshot_faultCode (p : Params) (s : State) :
    (loadSnapshot p s).faultCode = s.faultCode := rfl
@[simp] theorem loadSnapshot_faultInfo (p : Params) (s : State) :
    (loadSnapshot p s).faultInfo = s.faultInfo := rfl
@[simp] theorem loadSnapshot_imask (p : Params) (s : State) :
    (loadSnapshot p s).imask = s.imask := rfl
@[simp] theorem loadSnapshot_drvPhase (p : Params) (s : State) :
    (loadSnapshot p s).drvPhase = .colOn := rfl
@[simp] theorem loadSnapshot_drvC (p : Params) (s : State) :
    (loadSnapshot p s).drvC = 0 := rfl
@[simp] theorem loadSnapshot_drvR (p : Params) (s : State) :
    (loadSnapshot p s).drvR = s.drvR := rfl
@[simp] theorem loadSnapshot_drvPhys (p : Params) (s : State) :
    (loadSnapshot p s).drvPhys = transform p.posMap s.frame := rfl
@[simp] theorem loadSnapshot_hostQueue (p : Params) (s : State) :
    (loadSnapshot p s).hostQueue = s.hostQueue := rfl
@[simp] theorem loadSnapshot_sched (p : Params) (s : State) :
    (loadSnapshot p s).sched = s.sched := rfl
@[simp] theorem loadSnapshot_schedDraws (p : Params) (s : State) :
    (loadSnapshot p s).schedDraws = s.schedDraws := rfl
@[simp] theorem loadSnapshot_pinScript (p : Params) (s : State) :
    (loadSnapshot p s).pinScript = s.pinScript := rfl
@[simp] theorem loadSnapshot_pinDraws (p : Params) (s : State) :
    (loadSnapshot p s).pinDraws = s.pinDraws := rfl

@[simp] theorem consumeDraw_frame (s : State) :
    (consumeDraw s).frame = s.frame := by
  unfold consumeDraw; split <;> simp_all
@[simp] theorem consumeDraw_imgBuf (s : State) :
    (consumeDraw s).imgBuf = s.imgBuf := by
  unfold consumeDraw; split <;> simp_all
@[simp] theorem consumeDraw_imgLen (s : State) :
    (consumeDraw s).imgLen = s.imgLen := by
  unfold consumeDraw; split <;> simp_all
@[simp] theorem consumeDraw_curValid (s : State) :
    (consumeDraw s).curValid = s.curValid := by
  unfold consumeDraw; split <;> simp_all
@[simp] theorem consumeDraw_curIdx (s : State) :
    (consumeDraw s).curIdx = s.curIdx := by
  unfold consumeDraw; split <;> simp_all
@[simp] theorem consumeDraw_rowOut (s : State) :
    (consumeDraw s).rowOut = s.rowOut := by
  unfold consumeDraw; split <;> simp_all
@[simp] theorem consumeDraw_colOut (s : State) :
    (consumeDraw s).colOut = s.colOut := by
  unfold consumeDraw; split <;> simp_all
@[simp] theorem consumeDraw_initDone (s : State) :
    (consumeDraw s).initDone = s.initDone := by
  unfold consumeDraw; split <;> simp_all
@[simp] theorem consumeDraw_loopRun (s : State) :
    (consumeDraw s).loopRun = s.loopRun := by
  unfold consumeDraw; split <;> simp_all
@[simp] theorem consumeDraw_scrEn (s : State) :
    (consumeDraw s).scrEn = s.scrEn := by
  unfold consumeDraw; split <;> simp_all
@[simp] theorem consumeDraw_scrPend (s : State) :
    (consumeDraw s).scrPend = s.scrPend := by
  unfold consumeDraw; split <;> simp_all
@[simp] theorem consumeDraw_cdState (s : State) :
    (consumeDraw s).cdState = s.cdState := by
  unfold consumeDraw; split <;> simp_all
@[simp] theorem consumeDraw_cdHours (s : State) :
    (consumeDraw s).cdHours = s.cdHours := by
  unfold consumeDraw; split <;> simp_all
@[simp] theorem consumeDraw_cdSub (s : State) :
    (consumeDraw s).cdSub = s.cdSub := by
  unfold consumeDraw; split <;> simp_all
@[simp] theorem consumeDraw_cdEn (s : State) :
    (consumeDraw s).cdEn = s.cdEn := by
  unfold consumeDraw; split <;> simp_all
@[simp] theorem consumeDraw_cdPend (s : State) :
    (consumeDraw s).cdPend = s.cdPend := by
  unfold consumeDraw; split <;> simp_all
@[simp] theorem consumeDraw_faultCode (s : State) :
    (consumeDraw s).faultCode = s.faultCode := by
  unfold consumeDraw; split <;> simp_all
@[simp] theorem consumeDraw_faultInfo (s : State) :
    (consumeDraw s).faultInfo = s.faultInfo := by
  unfold consumeDraw; split <;> simp_all
@[simp] theorem consumeDraw_imask (s : State) :
    (consumeDraw s).imask = s.imask := by
  unfold consumeDraw; split <;> simp_all
@[simp] theorem consumeDraw_drvPhase (s : State) :
    (consumeDraw s).drvPhase = s.drvPhase := by
  unfold consumeDraw; split <;> simp_all
@[simp] theorem consumeDraw_drvC (s : State) :
    (consumeDraw s).drvC = s.drvC := by
  unfold consumeDraw; split <;> simp_all
@[simp] theorem consumeDraw_drvR (s : State) :
    (consumeDraw s).drvR = s.drvR := by
  unfold consumeDraw; split <;> simp_all
@[simp] theorem consumeDraw_drvPhys (s : State) :
    (consumeDraw s).drvPhys = s.drvPhys := by
  unfold consumeDraw; split <;> simp_all
@[simp] theorem consumeDraw_hostQueue (s : State) :
    (consumeDraw s).hostQueue = s.hostQueue := by
  unfold consumeDraw; split <;> simp_all
@[simp] theorem consumeDraw_sched (s : State) :
    (consumeDraw s).sched = s.sched := by
  unfold consumeDraw; split <;> simp_all
@[simp] theorem consumeDraw_schedDraws (s : State) :
    (consumeDraw s).schedDraws = s.schedDraws := by
  unfold consumeDraw; split <;> simp_all
@[simp] theorem consumeDraw_pinScript (s : State) :
    (consumeDraw s).pinScript = s.pinScript.tail := by
  unfold consumeDraw; split <;> simp_all
@[simp] theorem consumeDraw_pinDraws (s : State) :
    (consumeDraw s).pinDraws = if s.pinScript = [] then s.pinDraws + 1 else s.pinDraws := by
  unfold consumeDraw; split <;> simp_all

@[simp] theorem useDraw_frame (p : Params) (s : State) :
    (useDraw p s).frame = s.frame := by
  unfold useDraw; cases p.gpioMayFail <;> simp
@[simp] theorem useDraw_imgBuf (p : Params) (s : State) :
    (useDraw p s).imgBuf = s.imgBuf := by
  unfold useDraw; cases p.gpioMayFail <;> simp
@[simp] theorem useDraw_imgLen (p : Params) (s : State) :
    (useDraw p s).imgLen = s.imgLen := by
  unfold useDraw; cases p.gpioMayFail <;> simp
@[simp] theorem useDraw_curValid (p : Params) (s : State) :
    (useDraw p s).curValid = s.curValid := by
  unfold useDraw; cases p.gpioMayFail <;> simp
@[simp] theorem useDraw_curIdx (p : Params) (s : State) :
    (useDraw p s).curIdx = s.curIdx := by
  unfold useDraw; cases p.gpioMayFail <;> simp
@[simp] theorem useDraw_rowOut (p : Params) (s : State) :
    (useDraw p s).rowOut = s.rowOut := by
  unfold useDraw; cases p.gpioMayFail <;> simp
@[simp] theorem useDraw_colOut (p : Params) (s : State) :
    (useDraw p s).colOut = s.colOut := by
  unfold useDraw; cases p.gpioMayFail <;> simp
@[simp] theorem useDraw_initDone (p : Params) (s : State) :
    (useDraw p s).initDone = s.initDone := by
  unfold useDraw; cases p.gpioMayFail <;> simp
@[simp] theorem useDraw_loopRun (p : Params) (s : State) :
    (useDraw p s).loopRun = s.loopRun := by
  unfold useDraw; cases p.gpioMayFail <;> simp
@[simp] theorem useDraw_scrEn (p : Params) (s : State) :
    (useDraw p s).scrEn = s.scrEn := by
  unfold useDraw; cases p.gpioMayFail <;> simp
@[simp] theorem useDraw_scrPend (p : Params) (s : State) :
    (useDraw p s).scrPend = s.scrPend := by
  unfold useDraw; cases p.gpioMayFail <;> simp
@[simp] theorem useDraw_cdState (p : Params) (s : State) :
    (useDraw p s).cdState = s.cdState := by
  unfold useDraw; cases p.gpioMayFail <;> simp
@[simp] theorem useDraw_cdHours (p : Params) (s : State) :
    (useDraw p s).cdHours = s.cdHours := by
  unfold useDraw; cases p.gpioMayFail <;> simp
@[simp] theorem useDraw_cdSub (p : Params) (s : State) :
    (useDraw p s).cdSub = s.cdSub := by
  unfold useDraw; cases p.gpioMayFail <;> simp
@[simp] theorem useDraw_cdEn (p : Params) (s : State) :
    (useDraw p s).cdEn = s.cdEn := by
  unfold useDraw; cases p.gpioMayFail <;> simp
@[simp] theorem useDraw_cdPend (p : Params) (s : State) :
    (useDraw p s).cdPend = s.cdPend := by
  unfold useDraw; cases p.gpioMayFail <;> simp
@[simp] theorem useDraw_faultCode (p : Params) (s : State) :
    (useDraw p s).faultCode = s.faultCode := by
  unfold useDraw; cases p.gpioMayFail <;> simp
@[simp] theorem useDraw_faultInfo (p : Params) (s : State) :
    (useDraw p s).faultInfo = s.faultInfo := by
  unfold useDraw; cases p.gpioMayFail <;> simp
@[simp] theorem useDraw_imask (p : Params) (s : State) :
    (useDraw p s).imask = s.imask := by
  unfold useDraw; cases p.gpioMayFail <;> simp
@[simp] theorem useDraw_drvPhase (p : Params) (s : State) :
    (useDraw p s).drvPhase = s.drvPhase := by
  unfold useDraw; cases p.gpioMayFail <;> simp
@[simp] theorem useDraw_drvC (p : Params) (s : State) :
    (useDraw p s).drvC = s.drvC := by
  unfold useDraw; cases p.gpioMayFail <;> simp
@[simp] theorem useDraw_drvR (p : Params) (s : State) :
    (useDraw p s).drvR = s.drvR := by
  unfold useDraw; cases p.gpioMayFail <;> simp
@[simp] theorem useDraw_drvPhys (p : Params) (s : State) :
    (useDraw p s).drvPhys = s.drvPhys := by
  unfold useDraw; cases p.gpioMayFail <;> simp
@[simp] theorem useDraw_hostQueue (p : Params) (s : State) :
    (useDraw p s).hostQueue = s.hostQueue := by
  unfold useDraw; cases p.gpioMayFail <;> simp
@[simp] theorem useDraw_sched (p : Params) (s : State) :
    (useDraw p s).sched = s.sched := by
  unfold useDraw; cases p.gpioMayFail <;> simp
@[simp] theorem useDraw_schedDraws (p : Params) (s : State) :
    (useDraw p s).schedDraws = s.schedDraws := by
  unfold useDraw; cases p.gpioMayFail <;> simp
@[simp] theorem useDraw_pinScript (p : Params) (s : State) :
    (useDraw p s).pinScript = if p.gpioMayFail then s.pinScript.tail else s.pinScript := by
  unfold useDraw; cases p.gpioMayFail <;> simp
@[simp] theorem useDraw_pinDraws (p : Params) (s : State) :
    (useDraw p s).pinDraws = if p.gpioMayFail ∧ s.pinScript = [] then s.pinDraws + 1 else s.pinDraws := by
  unfold useDraw; cases p.gpioMayFail <;> simp

@[simp] theorem consumeChoice_frame (s : State) :
    (consumeChoice s).frame = s.frame := by
  unfold consumeChoice; split <;> simp_all
@[simp] theorem consumeChoice_imgBuf (s : State) :
    (consumeChoice s).imgBuf = s.imgBuf := by
  unfold consumeChoice; split <;> simp_all
@[simp] theorem consumeChoice_imgLen (s : State) :
    (consumeChoice s).imgLen = s.imgLen := by
  unfold consumeChoice; split <;> simp_all
@[simp] theorem consumeChoice_curValid (s : State) :
    (consumeChoice s).curValid = s.curValid := by
  unfold consumeChoice; split <;> simp_all
@[simp] theorem consumeChoice_curIdx (s : State) :
    (consumeChoice s).curIdx = s.curIdx := by
  unfold consumeChoice; split <;> simp_all
@[simp] theorem consumeChoice_rowOut (s : State) :
    (consumeChoice s).rowOut = s.rowOut := by
  unfold consumeChoice; split <;> simp_all
@[simp] theorem consumeChoice_colOut (s : State) :
    (consumeChoice s).colOut = s.colOut := by
  unfold consumeChoice; split <;> simp_all
@[simp] theorem consumeChoice_initDone (s : State) :
    (consumeChoice s).initDone = s.initDone := by
  unfold consumeChoice; split <;> simp_all
@[simp] theorem consumeChoice_loopRun (s : State) :
    (consumeChoice s).loopRun = s.loopRun := by
  unfold consumeChoice; split <;> simp_all
@[simp] theorem consumeChoice_scrEn (s : State) :
    (consumeChoice s).scrEn = s.scrEn := by
  unfold consumeChoice; split <;> simp_all
@[simp] theorem consumeChoice_scrPend (s : State) :
    (consumeChoice s).scrPend = s.scrPend := by
  unfold consumeChoice; split <;> simp_all
@[simp] theorem consumeChoice_cdState (s : State) :
    (consumeChoice s).cdState = s.cdState := by
  unfold consumeChoice; split <;> simp_all
@[simp] theorem consumeChoice_cdHours (s : State) :
    (consumeChoice s).cdHours = s.cdHours := by
  unfold consumeChoice; split <;> simp_all
@[simp] theorem consumeChoice_cdSub (s : State) :
    (consumeChoice s).cdSub = s.cdSub := by
  unfold consumeChoice; split <;> simp_all
@[simp] theorem consumeChoice_cdEn (s : State) :
    (consumeChoice s).cdEn = s.cdEn := by
  unfold consumeChoice; split <;> simp_all
@[simp] theorem consumeChoice_cdPend (s : State) :
    (consumeChoice s).cdPend = s.cdPend := by
  unfold consumeChoice; split <;> simp_all
@[simp] theorem consumeChoice_faultCode (s : State) :
    (consumeChoice s).faultCode = s.faultCode := by
  unfold consumeChoice; split <;> simp_all
@[simp] theorem consumeChoice_faultInfo (s : State) :
    (consumeChoice s).faultInfo = s.faultInfo := by
  unfold consumeChoice; split <;> simp_all
@[simp] theorem consumeChoice_imask (s : State) :
    (consumeChoice s).imask = s.imask := by
  unfold consumeChoice; split <;> simp_all
@[simp] theorem consumeChoice_drvPhase (s : State) :
    (consumeChoice s).drvPhase = s.drvPhase := by
  unfold consumeChoice; split <;> simp_all
@[simp] theorem consumeChoice_drvC (s : State) :
    (consumeChoice s).drvC = s.drvC := by
  unfold consumeChoice; split <;> simp_all
@[simp] theorem consumeChoice_drvR (s : State) :
    (consumeChoice s).drvR = s.drvR := by
  unfold consumeChoice; split <;> simp_all
@[simp] theorem consumeChoice_drvPhys (s : State) :
    (consumeChoice s).drvPhys = s.drvPhys := by
  unfold consumeChoice; split <;> simp_all
@[simp] theorem consumeChoice_hostQueue (s : State) :
    (consumeChoice s).hostQueue = s.hostQueue := by
  unfold consumeChoice; split <;> simp_all
@[simp] theorem consumeChoice_sched (s : State) :
    (consumeChoice s).sched = s.sched.tail := by
  unfold consumeChoice; split <;> simp_all
@[simp] theorem consumeChoice_schedDraws (s : State) :
    (consumeChoice s).schedDraws = if s.sched = [] then s.schedDraws + 1 else s.schedDraws := by
  unfold consumeChoice; split <;> simp_all
@[simp] theorem consumeChoice_pinScript (s : State) :
    (consumeChoice s).pinScript = s.pinScript := by
  unfold consumeChoice; split <;> simp_all
@[simp] theorem consumeChoice_pinDraws (s : State) :
    (consumeChoice s).pinDraws = s.pinDraws := by
  unfold consumeChoice; split <;> simp_all

end Sys2Proof.Machine
end

