-- ==== Sys2Proof/Laws/Ops.lean ====
section
/-!
SUPPORT. What each shared operation can do, said once: steps and their enabling conditions, host
commands, output writes, pushes.
-/

namespace Sys2Proof.Machine

variable {s t : State} {id : Byte} {en : State → Bool} {rule : State → State} {p : Params}

@[simp] theorem settle_ok (s : State) : settle (.ok s) = s := rfl

@[simp] theorem settle_error (s : State) : settle (.error s) = s := rfl

@[simp] theorem settle_raise (c : FaultCode) (w : Word) (s : State) :
    settle (raise c w s) = raiseFault c w s := rfl

/-! ## Steps -/

theorem takeStep_enabled (hf : s.faultCode = .none) (he : en s = true) :
    takeStep id en rule s = .next (rule s) := by
  simp [takeStep, hf, he]

theorem takeStep_halted (hf : s.faultCode ≠ .none) :
    takeStep id en rule s = .fault (.halted s.faultCode s.faultInfo) := by
  simp [takeStep, hf]

theorem takeStep_disabled (hf : s.faultCode = .none) (he : en s = false) :
    takeStep id en rule s = .fault (.notEnabled id) := by
  simp [takeStep, hf, he]

/-- All a step can do when it answers a next state. -/
theorem takeStep_eq_next :
    takeStep id en rule s = .next t ↔ s.faultCode = .none ∧ en s = true ∧ rule s = t := by
  unfold takeStep
  split
  · simp_all
  · split <;> simp_all

theorem takeStep_not_refused (r : Refusal) : takeStep id en rule s ≠ .refused r := by
  unfold takeStep
  split
  · simp
  · split <;> simp

/-- A critical section ends with the interrupts unmasked. -/
theorem atomic_imask (body : State → Flow) (s : State) : (atomic body s).imask = false := rfl

/-! ## Output writes -/

/-- An output write fails with a fault, or it sets the output; either way the draw it makes is used
up. -/
theorem pinWrite_cases (p : Params) (out : Output) (x : Level) (s : State) :
    (writeFails p s = false ∧ pinWrite p out x s = .ok (setOut out x (useDraw p s))) ∨
      (writeFails p s = true ∧
        pinWrite p out x s = raise .gpioWriteFailure out.id (useDraw p s)) := by
  unfold pinWrite
  cases writeFails p s <;> simp

theorem pinWrite_fails {out : Output} {x : Level} (h : writeFails p s = true) :
    pinWrite p out x s = raise .gpioWriteFailure out.id (useDraw p s) := by
  simp [pinWrite, h]

theorem pinWrite_succeeds {out : Output} {x : Level} (h : writeFails p s = false) :
    pinWrite p out x s = .ok (setOut out x (useDraw p s)) := by
  simp [pinWrite, h]

/-- A block whose writes may fail takes the draw as it comes and uses it up. -/
theorem writeFails_fallible (h : p.gpioMayFail = true) : writeFails p s = drawnFail s := by
  simp [writeFails, h]

theorem useDraw_fallible (h : p.gpioMayFail = true) : useDraw p s = consumeDraw s := by
  simp [useDraw, h]

/-- A block whose writes cannot fail draws nothing (43_display_driver.md R161). -/
theorem writeFails_infallible (h : p.gpioMayFail = false) : writeFails p s = false := by
  simp [writeFails, h]

theorem useDraw_infallible (h : p.gpioMayFail = false) : useDraw p s = s := by
  simp [useDraw, h]

@[simp] theorem writeFails_params (s : State) : writeFails Config.params s = drawnFail s := rfl

@[simp] theorem useDraw_params (s : State) : useDraw Config.params s = consumeDraw s := rfl

@[simp] theorem params_gpioMayFail : Config.params.gpioMayFail = true := rfl

@[simp] theorem params_cap : Config.params.cap = Config.cap := rfl

@[simp] theorem params_posMap : Config.params.posMap = Config.posMap := rfl

@[simp] theorem params_font : Config.params.font = Config.fontRom := rfl

/-! ## Pushes -/

theorem pushAll_append (vs ws : List ColImage) (s : State) :
    pushAll p (vs ++ ws) s = (pushAll p vs s).bind (pushAll p ws) := by
  induction vs generalizing s with
  | nil => rfl
  | cons v vs ih =>
    simp only [List.cons_append, pushAll]
    cases push p v s with
    | error e => rfl
    | ok t => exact ih t

theorem pushAll_singleton (v : ColImage) (s : State) : pushAll p [v] s = push p v s := by
  simp only [pushAll]
  cases push p v s <;> rfl

/-- The state after pushes that fit. -/
def pushed (vs : List ColImage) (s : State) : State :=
  { s with
    imgBuf := s.imgBuf.take s.imgLen ++ vs ++ s.imgBuf.drop (s.imgLen + vs.length)
    imgLen := s.imgLen + vs.length }

theorem pushed_cons (v : ColImage) (vs : List ColImage) (s : State)
    (h : s.imgLen < s.imgBuf.length) : pushed vs (storeColumn v s) = pushed (v :: vs) s := by
  have h1 : (s.imgBuf.set s.imgLen v).take (s.imgLen + 1) = s.imgBuf.take s.imgLen ++ [v] := by
    rw [List.take_succ_eq_append_getElem (by simpa using h), List.take_set_of_le (le_refl _)]
    simp
  have h2 : (s.imgBuf.set s.imgLen v).drop (s.imgLen + (1 + vs.length))
      = s.imgBuf.drop (s.imgLen + (vs.length + 1)) := by
    rw [List.drop_set_of_lt (by omega), Nat.add_comm 1]
  simp only [pushed, storeColumn, h1, List.length_cons, List.append_assoc, Nat.add_assoc, h2]
  simp only [Nat.add_comm 1, List.cons_append, List.nil_append]

/-- Pushes that fit leave exactly the columns after the content there was (41_image_encoder.md
R110). -/
theorem pushAll_fits (vs : List ColImage) (s : State) (hc : s.imgBuf.length = p.cap)
    (h : s.imgLen + vs.length ≤ p.cap) : pushAll p vs s = .ok (pushed vs s) := by
  induction vs generalizing s with
  | nil => simp [pushAll, pushed]
  | cons v vs ih =>
    simp only [List.length_cons] at h
    have hne : s.imgLen ≠ p.cap := by omega
    rw [← pushed_cons v vs s (by omega)]
    simp only [pushAll, push, if_neg hne]
    exact ih _ (by simpa using hc) (by simp; omega)

/-- Pushes that do not fit end at the first beyond CAP, with CAPACITY_EXCEEDED and the buffer full
(41_image_encoder.md R110). -/
theorem pushAll_overflows (vs : List ColImage) (s : State) (hc : s.imgBuf.length = p.cap)
    (hl : s.imgLen ≤ p.cap) (h : p.cap < s.imgLen + vs.length) :
    ∃ buf : List ColImage, buf.length = p.cap ∧
      pushAll p vs s = raise .capacityExceeded (BitVec.ofNat 32 (p.cap + 1))
        { s with imgBuf := buf, imgLen := p.cap } := by
  induction vs generalizing s with
  | nil => simp at h; omega
  | cons v vs ih =>
    by_cases hcap : s.imgLen = p.cap
    · refine ⟨s.imgBuf, hc, ?_⟩
      rw [← hcap]
      simp only [pushAll, push, if_pos hcap]
      rw [← hcap]
      rfl
    · obtain ⟨buf, hb, e⟩ := ih (storeColumn v s) (by simpa using hc) (by simp; omega)
        (by simp at h ⊢; omega)
      refine ⟨buf, hb, ?_⟩
      simp only [pushAll, push, if_neg hcap]
      exact e

/-- All that a list of pushes can do: it writes IMG_BUF and IMG_LEN alone, or it stops with
CAPACITY_EXCEEDED and a full buffer; the buffer keeps its number of cells. -/
theorem pushAll_cases (vs : List ColImage) (s : State) :
    ∃ (buf : List ColImage) (len : Nat), buf.length = s.imgBuf.length ∧
      (pushAll p vs s = .ok { s with imgBuf := buf, imgLen := len } ∨
        len = p.cap ∧ pushAll p vs s = raise .capacityExceeded (BitVec.ofNat 32 (p.cap + 1))
          { s with imgBuf := buf, imgLen := len }) := by
  induction vs generalizing s with
  | nil => exact ⟨s.imgBuf, s.imgLen, rfl, .inl rfl⟩
  | cons v vs ih =>
    by_cases hcap : s.imgLen = p.cap
    · refine ⟨s.imgBuf, s.imgLen, rfl, .inr ⟨hcap, ?_⟩⟩
      simp only [pushAll, push, if_pos hcap]
      rfl
    · obtain ⟨buf, len, hb, h⟩ := ih (storeColumn v s)
      refine ⟨buf, len, by simpa using hb, ?_⟩
      simp only [pushAll, push, if_neg hcap]
      exact h

/-- Pushes that go through lengthen the content by their number. -/
theorem pushAll_ok_length {vs : List ColImage} (h : pushAll p vs s = .ok t) :
    t.imgLen = s.imgLen + vs.length := by
  induction vs generalizing s with
  | nil =>
    cases h
    rfl
  | cons v vs ih =>
    by_cases hcap : s.imgLen = p.cap
    · simp only [pushAll, push, if_pos hcap] at h
      cases h
    · simp only [pushAll, push, if_neg hcap] at h
      rw [ih h]
      simp [Nat.add_assoc, Nat.add_comm 1]

/-- Pushes that go through from at most CAP columns end with at most CAP. -/
theorem pushAll_ok_le {vs : List ColImage} (hl : s.imgLen ≤ p.cap) (h : pushAll p vs s = .ok t) :
    t.imgLen ≤ p.cap := by
  induction vs generalizing s with
  | nil =>
    cases h
    exact hl
  | cons v vs ih =>
    by_cases hcap : s.imgLen = p.cap
    · simp only [pushAll, push, if_pos hcap] at h
      cases h
    · simp only [pushAll, push, if_neg hcap] at h
      exact ih (by simp; omega) h

end Sys2Proof.Machine
end

