-- ==== Sys2Proof/Laws/Encoder.lean ====
section
/-!
SUPPORT. The encoder's bodies as one list of pushes, and what an encode does to the state.
-/

namespace Sys2Proof.Machine

variable {p : Params}

theorem appendGlyph_eq_pushAll (c : Byte) (s : State) :
    appendGlyph p c s = pushAll p (glyphColumns p.font c ++ [blankColumn]) s := by
  rw [pushAll_append]
  unfold appendGlyph glyphColumns
  cases fontLookup p.font c with
  | none => exact (pushAll_singleton blankColumn s).symm
  | some g =>
    simp only [Option.getD_some]
    cases pushAll p g s with
    | error e => rfl
    | ok t => exact (pushAll_singleton blankColumn t).symm

theorem appendText_eq_pushAll (text : List Byte) (s : State) :
    appendText p text s = pushAll p (textColumns p.font text) s := by
  induction text generalizing s with
  | nil => rfl
  | cons c cs ih =>
    rw [show textColumns p.font (c :: cs)
      = (glyphColumns p.font c ++ [blankColumn]) ++ textColumns p.font cs from rfl, pushAll_append]
    simp only [appendText, appendGlyph_eq_pushAll]
    cases pushAll p (glyphColumns p.font c ++ [blankColumn]) s with
    | error e => rfl
    | ok t => exact ih t

/-- The body of DISPLAY_TEXT pushes the content of the text into the cleared buffer. -/
theorem textBody_eq_pushAll (text : List Byte) (s : State) :
    textBody p text s = pushAll p (textContent p.font text) (beginContent s) := by
  unfold textBody textContent
  rw [pushAll_append, appendText_eq_pushAll]
  rfl

/-- An encode that fits leaves its content at the front of the buffer and the cursor unset. -/
theorem pushAll_begin_fits (cols : List ColImage) (s : State) (hc : s.imgBuf.length = p.cap)
    (h : cols.length ≤ p.cap) :
    pushAll p cols (beginContent s) = .ok (withContent s cols) := by
  rw [pushAll_fits cols (beginContent s) (by simpa using hc) (by simpa using h)]
  simp [pushed, withContent, beginContent]

/-- An encode that does not fit stops with a full buffer. -/
theorem pushAll_begin_overflows (cols : List ColImage) (s : State)
    (hc : s.imgBuf.length = p.cap) (h : p.cap < cols.length) :
    ∃ buf : List ColImage, buf.length = p.cap ∧
      pushAll p cols (beginContent s) =
        raise .capacityExceeded (BitVec.ofNat 32 (p.cap + 1))
          { s with imgBuf := buf, imgLen := p.cap, curValid := false } := by
  obtain ⟨buf, hb, e⟩ := pushAll_overflows cols (beginContent s) (by simpa using hc)
    (by simp) (by simpa using h)
  exact ⟨buf, hb, e⟩

theorem textContent_length (rom : FontRom) (text : List Byte) :
    (textContent rom text).length = (text.map fun c => charWidth rom c + 1).sum + 5 := by
  simp only [textContent, List.length_append, List.length_replicate]
  congr 1
  induction text with
  | nil => rfl
  | cons c cs ih =>
    rw [show textColumns rom (c :: cs)
      = (glyphColumns rom c ++ [blankColumn]) ++ textColumns rom cs from rfl]
    simp only [List.length_append, ih, List.map_cons, List.sum_cons, charWidth]
    rfl

/-- The digits of a number are one list of pushes, the same from every state. -/
theorem emitDigits_eq_pushAll (p : Params) (depth n : Nat) :
    ∃ cols, ∀ s, emitDigits p depth n s = pushAll p cols s := by
  induction depth generalizing n with
  | zero => exact ⟨[], fun _ => rfl⟩
  | succ d ih =>
    obtain ⟨cols, h⟩ := ih ((n - n % 10) / 10)
    by_cases hn : n - n % 10 ≠ 0
    · refine ⟨cols ++ (glyphColumns p.font (digitCode (n % 10)) ++ [blankColumn]), fun s => ?_⟩
      simp only [emitDigits, if_pos hn, h, pushAll_append cols]
      cases pushAll p cols s with
      | error e => rfl
      | ok t => exact appendGlyph_eq_pushAll _ t
    · refine ⟨glyphColumns p.font (digitCode (n % 10)) ++ [blankColumn], fun s => ?_⟩
      simp only [emitDigits, if_neg hn]
      exact appendGlyph_eq_pushAll _ s

/-- NumberBody pushes one list of columns into the cleared buffer. -/
theorem numberBody_eq_pushAll (p : Params) (n : Word) :
    ∃ cols, ∀ s, numberBody p n s = pushAll p cols (beginContent s) := by
  obtain ⟨cols, h⟩ := emitDigits_eq_pushAll p maxDigits n.toNat
  refine ⟨cols ++ List.replicate 5 blankColumn, fun s => ?_⟩
  rw [pushAll_append, ← h]
  rfl

/-- All that an encode can do, whether it ends with a fault or not. -/
theorem encode_cases (cols : List ColImage) (s : State) :
    ∃ (buf : List ColImage) (len : Nat), buf.length = s.imgBuf.length ∧ len ≤ p.cap ∧
      (pushAll p cols (beginContent s) =
          .ok { s with imgBuf := buf, imgLen := len, curValid := false } ∨
        pushAll p cols (beginContent s) = raise .capacityExceeded (BitVec.ofNat 32 (p.cap + 1))
          { s with imgBuf := buf, imgLen := len, curValid := false }) := by
  obtain ⟨buf, len, hb, h | ⟨hl, h⟩⟩ := pushAll_cases (p := p) cols (beginContent s)
  · exact ⟨buf, len, hb, pushAll_ok_le (Nat.zero_le _) h, .inl h⟩
  · exact ⟨buf, len, hb, le_of_eq hl, .inr h⟩

end Sys2Proof.Machine
end

