-- ==== Sys2Proof/Laws/Exec.lean ====
section
/-!
SUPPORT. Every operation is one `takeStep`: its enabling condition, the state its rule leaves, and so
all that `exec` and an agent's step can answer.
-/

namespace Sys2Proof.Machine

/-- The critical section of a host command, its check included (30_encoding.md R88). -/
def commandRule (op : Byte) (pre : State → Bool) (body : State → Flow) : State → State :=
  atomic fun t => if !t.loopRun && pre t then body t else raise .protocolViolation (zext32 op) t

/-- The "Enabled when" of an operation (20_memory.md R69). -/
def opEnabled : Instr → State → Bool
  | .init, _ => true
  | .displayText _, _ => true
  | .displayNumber _, _ => true
  | .startCountdown _, _ => true
  | .runDisplayLoop, _ => true
  | .scrollExpire, s => s.scrEn
  | .scrollIrq, s => s.scrPend
  | .countSubtick, s => s.cdEn
  | .countIrq, s => s.cdPend
  | .drvSnapshot, s => decide (s.drvPhase = .snap)
  | .drvColOn, s => decide (s.drvPhase = .colOn)
  | .drvRow, s => decide (s.drvPhase = .row)
  | .drvDwell, s => decide (s.drvPhase = .dwell)
  | .drvRowOff, s => decide (s.drvPhase = .rowOff)
  | .drvColOff, s => decide (s.drvPhase = .colOff)
  | .fontLookup _, _ => true
  | .appendGlyph _, _ => true

/-- The state an operation's rule leaves, in a block with these parameters. -/
def opRule (p : Params) : Instr → State → State
  | .init => commandRule 0x01 (fun t => !t.initDone)
      fun t => .ok { t with initDone := true, scrEn := true }
  | .displayText text => commandRule 0x02 (fun _ => true) (textBody p text)
  | .displayNumber n => commandRule 0x03 (fun _ => true) (numberBody p n)
  | .startCountdown h => commandRule 0x04 (fun t => t.initDone && decide (t.cdState = .idle))
      fun t => .ok (beginCountdown h t)
  | .runDisplayLoop => commandRule 0x05 (fun t => t.initDone)
      fun t => .ok { t with loopRun := true, drvPhase := .snap }
  | .scrollExpire => setPending .scroll
  | .scrollIrq => atomic fun t => .ok (interruptReturn .scroll (scrollTick t))
  | .countSubtick => subtick p
  | .countIrq => atomic (countHandlerBody p)
  | .drvSnapshot => atomic fun t => .ok (loadSnapshot p t)
  | .drvColOn => fun t => settle (colOnBody p t)
  | .drvRow => fun t => settle (rowBody p t)
  | .drvDwell => fun t => { t with drvR := 0, drvPhase := .rowOff }
  | .drvRowOff => fun t => settle (rowOffBody p t)
  | .drvColOff => fun t => settle (colOffBody p t)
  | .fontLookup _ => fun t => t
  | .appendGlyph c => fun t => settle (appendGlyph p c t)

variable {p : Params}

/-- The operations of the block are those of a block with any parameters, at the default ones. -/
theorem exec_eq_execWith : exec = execWith Config.params := by
  funext i s
  cases i <;> rfl

theorem execWith_eq_takeStep (p : Params) (i : Instr) (s : State) :
    execWith p i s = takeStep i.opcode (opEnabled i) (opRule p i) s := by
  cases i <;> rfl

/-- All that an operation can do when it answers a next state. -/
theorem execWith_eq_next {i : Instr} {s t : State} :
    execWith p i s = .next t ↔
      s.faultCode = .none ∧ opEnabled i s = true ∧ opRule p i s = t := by
  rw [execWith_eq_takeStep, takeStep_eq_next]

theorem execWith_enabled {i : Instr} {s : State} (hf : s.faultCode = .none)
    (he : opEnabled i s = true) : execWith p i s = .next (opRule p i s) :=
  execWith_eq_next.2 ⟨hf, he, rfl⟩

theorem execWith_disabled {i : Instr} {s : State} (hf : s.faultCode = .none)
    (he : opEnabled i s = false) : execWith p i s = .fault (.notEnabled i.opcode) := by
  rw [execWith_eq_takeStep, takeStep_disabled hf he]

theorem execWith_halted {i : Instr} {s : State} (hf : s.faultCode ≠ .none) :
    execWith p i s = .fault (.halted s.faultCode s.faultInfo) := by
  rw [execWith_eq_takeStep, takeStep_halted hf]

/-- No operation is refused. -/
theorem execWith_not_refused (p : Params) (i : Instr) (s : State) (r : Refusal) :
    execWith p i s ≠ .refused r := by
  rw [execWith_eq_takeStep]
  exact takeStep_not_refused r

theorem exec_eq_next {i : Instr} {s t : State} :
    exec i s = .next t ↔
      s.faultCode = .none ∧ opEnabled i s = true ∧ opRule Config.params i s = t := by
  rw [exec_eq_execWith, execWith_eq_next]

theorem exec_enabled {i : Instr} {s : State} (hf : s.faultCode = .none)
    (he : opEnabled i s = true) : exec i s = .next (opRule Config.params i s) :=
  exec_eq_next.2 ⟨hf, he, rfl⟩

theorem exec_disabled {i : Instr} {s : State} (hf : s.faultCode = .none)
    (he : opEnabled i s = false) : exec i s = .fault (.notEnabled i.opcode) := by
  rw [exec_eq_execWith, execWith_disabled hf he]

theorem exec_halted {i : Instr} {s : State} (hf : s.faultCode ≠ .none) :
    exec i s = .fault (.halted s.faultCode s.faultInfo) := by
  rw [exec_eq_execWith, execWith_halted hf]

theorem exec_not_refused (i : Instr) (s : State) (r : Refusal) : exec i s ≠ .refused r := by
  rw [exec_eq_execWith]
  exact execWith_not_refused _ i s r

/-- A host command whose precondition fails writes nothing but the fault. -/
theorem commandRule_rejected {op : Byte} {pre : State → Bool} {body : State → Flow} {s : State}
    (h : s.loopRun = true ∨ pre (maskInterrupts s) = false) :
    commandRule op pre body s = faulted s .protocolViolation (zext32 op) := by
  have hc : (!(maskInterrupts s).loopRun && pre (maskInterrupts s)) ≠ true := by
    rcases h with h | h <;> simp [h]
  unfold commandRule atomic
  beta_reduce
  rw [if_neg hc]
  rfl

/-- A host command whose precondition holds runs its body as one critical section. -/
theorem commandRule_accepted {op : Byte} {pre : State → Bool} {body : State → Flow} {s : State}
    (hl : s.loopRun = false) (hp : pre (maskInterrupts s) = true) :
    commandRule op pre body s = atomic body s := by
  have hc : (!(maskInterrupts s).loopRun && pre (maskInterrupts s)) = true := by simp [hl, hp]
  unfold commandRule atomic
  beta_reduce
  rw [if_pos hc]

/-- All that a host command's rule can do. -/
theorem commandRule_cases (op : Byte) (pre : State → Bool) (body : State → Flow) (s : State) :
    (s.loopRun = false ∧ pre (maskInterrupts s) = true ∧
        commandRule op pre body s = atomic body s) ∨
      ((s.loopRun = true ∨ pre (maskInterrupts s) = false) ∧
        commandRule op pre body s = faulted s .protocolViolation (zext32 op)) := by
  by_cases h : s.loopRun = true ∨ pre (maskInterrupts s) = false
  · exact .inr ⟨h, commandRule_rejected h⟩
  · have h' : s.loopRun = false ∧ pre (maskInterrupts s) = true := by
      cases h1 : s.loopRun <;> cases h2 : pre (maskInterrupts s) <;> simp_all
    exact .inl ⟨h'.1, h'.2, commandRule_accepted h'.1 h'.2⟩

/-! ## Agents -/

theorem stepAs_eq_stepAsWith : stepAs = stepAsWith Config.params := by
  funext c s
  rw [stepAs, stepAsWith, exec_eq_execWith]

theorem step_eq_stepWith : step = stepWith Config.params := by
  funext s
  rw [step, stepWith, exec_eq_execWith]

theorem runAs_eq_runAsWith : runAs = runAsWith Config.params := by
  funext cs s
  rw [runAs, runAsWith, exec_eq_execWith]

variable {run : Operations}

theorem stepBy_running {c : Choice} {s : State} (hf : s.faultCode = .none) :
    stepBy run c s = agentStep run c s := by
  simp [stepBy, hf]

theorem stepBy_next_running {c : Choice} {s t : State} (h : stepBy run c s = .next t) :
    s.faultCode = .none := by
  by_contra hf
  simp [stepBy, hf] at h

/-- All that an agent's step can do when it answers a next state: one operation, on the state in which
the host's command is consumed, or a reserved opcode's fault. -/
theorem stepBy_next {c : Choice} {s t : State} (h : stepBy run c s = .next t) :
    (c = .host ∧ ∃ i rest, decodeHost s.hostQueue = .command i rest ∧
        run i { s with hostQueue := rest } = .next t) ∨
      (c = .host ∧ ∃ op rest, decodeHost s.hostQueue = .reserved op rest ∧
        t = faulted { s with hostQueue := rest } .illegalCommand (zext32 op)) ∨
      (c = .scrollTimer ∧ run .scrollExpire s = .next t) ∨
      (c = .countTimer ∧ run .countSubtick s = .next t) ∨
      (c = .scrollHandler ∧ run .scrollIrq s = .next t) ∨
      (c = .countHandler ∧ run .countIrq s = .next t) ∨
      (c = .driver ∧ ∃ i, phaseStep s.drvPhase = some i ∧ run i s = .next t) := by
  have hf := stepBy_next_running h
  rw [stepBy_running hf] at h
  cases c with
  | host =>
    simp only [agentStep, hostStep] at h
    split at h
    · next i rest e => exact .inl ⟨rfl, i, rest, e, h⟩
    · next op rest e =>
      refine .inr (.inl ⟨rfl, op, rest, e, ?_⟩)
      exact ((takeStep_eq_next.1 h).2.2).symm
    · simp at h
  | scrollTimer => exact .inr (.inr (.inl ⟨rfl, h⟩))
  | countTimer => exact .inr (.inr (.inr (.inl ⟨rfl, h⟩)))
  | scrollHandler => exact .inr (.inr (.inr (.inr (.inl ⟨rfl, h⟩))))
  | countHandler => exact .inr (.inr (.inr (.inr (.inr (.inl ⟨rfl, h⟩)))))
  | driver =>
    simp only [agentStep, driverTurn] at h
    split at h
    · next i e => exact .inr (.inr (.inr (.inr (.inr (.inr ⟨rfl, i, e, h⟩)))))
    · simp at h

/-- All that the block's step can do when it answers a next state: the step of one agent, once the
choice is used up. -/
theorem blockStep_next {s t : State} (h : blockStep run s = .next t) :
    ∃ c, nextAgent s = some c ∧ stepBy run c (consumeChoice s) = .next t := by
  unfold blockStep at h
  split at h
  · simp at h
  · split at h
    · next c e => exact ⟨c, e, h⟩
    · split at h <;> simp at h

/-- `stepBy_next` for the block at its default parameters. -/
theorem stepAs_next {c : Choice} {s t : State} (h : stepAs c s = .next t) :
    (c = .host ∧ ∃ i rest, decodeHost s.hostQueue = .command i rest ∧
        exec i { s with hostQueue := rest } = .next t) ∨
      (c = .host ∧ ∃ op rest, decodeHost s.hostQueue = .reserved op rest ∧
        t = faulted { s with hostQueue := rest } .illegalCommand (zext32 op)) ∨
      (c = .scrollTimer ∧ exec .scrollExpire s = .next t) ∨
      (c = .countTimer ∧ exec .countSubtick s = .next t) ∨
      (c = .scrollHandler ∧ exec .scrollIrq s = .next t) ∨
      (c = .countHandler ∧ exec .countIrq s = .next t) ∨
      (c = .driver ∧ ∃ i, phaseStep s.drvPhase = some i ∧ exec i s = .next t) :=
  stepBy_next h

theorem stepAs_running {c : Choice} {s : State} (hf : s.faultCode = .none) :
    stepAs c s = agentStep exec c s := stepBy_running hf

theorem stepAs_next_running {c : Choice} {s t : State} (h : stepAs c s = .next t) :
    s.faultCode = .none := stepBy_next_running h

theorem step_next {s t : State} (h : step s = .next t) :
    ∃ c, nextAgent s = some c ∧ stepAs c (consumeChoice s) = .next t := blockStep_next h

end Sys2Proof.Machine
end

