-- ==== Sys2Proof/Laws/Driver.lean ====
section
/-!
SUPPORT. What each statement of the driver can do, and the transform read bit by bit.
-/

namespace Sys2Proof.Machine

theorem anyMapped_eq_true {m : PosMap} {pr : Fin 9} {pc : Fin 3} {lit : Fin 5 → Fin 5 → Bool} :
    anyMapped m pr pc lit = true ↔ ∃ r k, m.cell r k = (pr, pc) ∧ lit r k = true := by
  simp [anyMapped]

theorem transform_apply (m : PosMap) (f : Vector ColImage 5) (pr : Fin 9) (pc : Fin 3) :
    (transform m f)[pr][pc] = transformBit m f pr pc := by
  simp [transform]

theorem advanceRow_cases (d : DrvPhase) (s : State) :
    (∃ h : s.drvR.val < 8, advanceRow d s = { s with drvR := ⟨s.drvR.val + 1, by omega⟩ }) ∨
      (s.drvR.val = 8 ∧ advanceRow d s = { s with drvPhase := d }) := by
  unfold advanceRow
  split
  · next h => exact .inl ⟨h, rfl⟩
  · exact .inr ⟨by omega, rfl⟩

theorem advanceColumn_cases (s : State) :
    (∃ h : s.drvC.val < 2, advanceColumn s =
        { s with drvC := ⟨s.drvC.val + 1, by omega⟩, drvPhase := .colOn }) ∨
      (s.drvC.val = 2 ∧ advanceColumn s = { s with drvPhase := .snap }) := by
  unfold advanceColumn
  split
  · next h => exact .inl ⟨h, rfl⟩
  · exact .inr ⟨by omega, rfl⟩

theorem colOnBody_cases (p : Params) (s : State) :
    (writeFails p s = false ∧ settle (colOnBody p s) =
        { setOut (.col s.drvC) .high (useDraw p s) with drvR := 0, drvPhase := .row }) ∨
      (writeFails p s = true ∧ settle (colOnBody p s) =
        raiseFault .gpioWriteFailure (Output.id (.col s.drvC)) (useDraw p s)) := by
  unfold colOnBody
  rcases pinWrite_cases p (.col s.drvC) .high s with ⟨h, e⟩ | ⟨h, e⟩ <;> rw [e]
  · exact .inl ⟨h, rfl⟩
  · exact .inr ⟨h, rfl⟩

theorem rowBody_cases (p : Params) (s : State) :
    (writeFails p s = false ∧ settle (rowBody p s) =
        advanceRow .dwell (setOut (.row s.drvR) (rowLevel s) (useDraw p s))) ∨
      (writeFails p s = true ∧ settle (rowBody p s) =
        raiseFault .gpioWriteFailure (Output.id (.row s.drvR)) (useDraw p s)) := by
  unfold rowBody
  rcases pinWrite_cases p (.row s.drvR) (rowLevel s) s with ⟨h, e⟩ | ⟨h, e⟩ <;> rw [e]
  · exact .inl ⟨h, rfl⟩
  · exact .inr ⟨h, rfl⟩

theorem rowOffBody_cases (p : Params) (s : State) :
    (writeFails p s = false ∧ settle (rowOffBody p s) =
        advanceRow .colOff (setOut (.row s.drvR) .high (useDraw p s))) ∨
      (writeFails p s = true ∧ settle (rowOffBody p s) =
        raiseFault .gpioWriteFailure (Output.id (.row s.drvR)) (useDraw p s)) := by
  unfold rowOffBody
  rcases pinWrite_cases p (.row s.drvR) .high s with ⟨h, e⟩ | ⟨h, e⟩ <;> rw [e]
  · exact .inl ⟨h, rfl⟩
  · exact .inr ⟨h, rfl⟩

theorem colOffBody_cases (p : Params) (s : State) :
    (writeFails p s = false ∧ settle (colOffBody p s) =
        advanceColumn (setOut (.col s.drvC) .low (useDraw p s))) ∨
      (writeFails p s = true ∧ settle (colOffBody p s) =
        raiseFault .gpioWriteFailure (Output.id (.col s.drvC)) (useDraw p s)) := by
  unfold colOffBody
  rcases pinWrite_cases p (.col s.drvC) .low s with ⟨h, e⟩ | ⟨h, e⟩ <;> rw [e]
  · exact .inl ⟨h, rfl⟩
  · exact .inr ⟨h, rfl⟩

end Sys2Proof.Machine
end

