-- ==== Sys2Proof/Laws/Ticks.lean ====
section
/-!
SUPPORT. What the countdown's statements can do.
-/

namespace Sys2Proof.Machine

theorem decrementHours_eq (s : State) :
    decrementHours s = { s with
      cdHours := s.cdHours - 1
      cdState := if s.cdHours - 1 = 0 then .stopped else s.cdState
      cdEn := if s.cdHours - 1 = 0 then false else s.cdEn } := by
  unfold decrementHours
  split <;> rfl

/-- All that COUNT_IRQ can do: outside RUNNING it clears the flag; in RUNNING it decrements and
re-encodes, and either the flag is cleared or the re-encode has raised CAPACITY_EXCEEDED and the flag
stays. -/
theorem countIrq_cases (p : Params) (s : State) :
    (s.cdState ≠ .running ∧ opRule p .countIrq s = { s with cdPend := false, imask := false }) ∨
      (s.cdState = .running ∧ ∃ (buf : List ColImage) (len : Nat),
        buf.length = s.imgBuf.length ∧ len ≤ p.cap ∧
        (opRule p .countIrq s = { decrementHours s with
            imgBuf := buf, imgLen := len, curValid := false, cdPend := false, imask := false } ∨
          opRule p .countIrq s = { decrementHours s with
            imgBuf := buf, imgLen := len, curValid := false, imask := false
            faultCode := .capacityExceeded, faultInfo := BitVec.ofNat 32 (p.cap + 1) })) := by
  by_cases h : s.cdState = .running
  · refine .inr ⟨h, ?_⟩
    simp only [opRule, atomic, countHandlerBody]
    rw [if_pos (by simpa using h)]
    unfold showHours
    obtain ⟨cols, hn⟩ := numberBody_eq_pushAll p
      ((decrementHours (maskInterrupts s)).cdHours / p.hoursPerUnit)
    rw [hn, decrementHours_eq]
    obtain ⟨buf, len, hb, hl, e | e⟩ := encode_cases (p := p) cols
      { maskInterrupts s with
        cdHours := (maskInterrupts s).cdHours - 1
        cdState := if (maskInterrupts s).cdHours - 1 = 0 then .stopped else (maskInterrupts s).cdState
        cdEn := if (maskInterrupts s).cdHours - 1 = 0 then false else (maskInterrupts s).cdEn } <;>
      refine ⟨buf, len, hb, hl, ?_⟩ <;> rw [e, decrementHours_eq]
    · exact .inl rfl
    · exact .inr rfl
  · refine .inl ⟨h, ?_⟩
    simp only [opRule, atomic, countHandlerBody]
    rw [if_neg (by simpa using h)]
    rfl

end Sys2Proof.Machine
end

