-- ==== Sys2Proof/Laws/Cases.lean ====
section
/-!
SUPPORT. All that each operation's rule can leave, operation by operation (the driver's and the
countdown handler's cases stand in Laws/Driver.lean and Laws/Ticks.lean), and the storage form.
-/

namespace Sys2Proof.Machine

variable {p : Params}

/-! ## Host commands -/

theorem init_cases (p : Params) (s : State) :
    (s.loopRun = false ∧ s.initDone = false ∧
        opRule p .init s = { s with initDone := true, scrEn := true, imask := false }) ∨
      ((s.loopRun = true ∨ s.initDone = true) ∧
        opRule p .init s = faulted s .protocolViolation 0x01) := by
  simp only [opRule]
  rcases commandRule_cases 0x01 (fun t => !t.initDone)
    (fun t => .ok { t with initDone := true, scrEn := true }) s with ⟨a, b, c⟩ | ⟨a, c⟩ <;> rw [c]
  · exact .inl ⟨a, by simpa using b, rfl⟩
  · exact .inr ⟨by simpa using a, rfl⟩

theorem runDisplayLoop_cases (p : Params) (s : State) :
    (s.loopRun = false ∧ s.initDone = true ∧
        opRule p .runDisplayLoop s =
          { s with loopRun := true, drvPhase := .snap, imask := false }) ∨
      ((s.loopRun = true ∨ s.initDone = false) ∧
        opRule p .runDisplayLoop s = faulted s .protocolViolation 0x05) := by
  simp only [opRule]
  rcases commandRule_cases 0x05 (fun t => t.initDone)
    (fun t => .ok { t with loopRun := true, drvPhase := .snap }) s with ⟨a, b, c⟩ | ⟨a, c⟩ <;>
    rw [c]
  · exact .inl ⟨a, by simpa using b, rfl⟩
  · exact .inr ⟨by simpa using a, rfl⟩

theorem startCountdown_cases (p : Params) (h : Word) (s : State) :
    (s.loopRun = false ∧ s.initDone = true ∧ s.cdState = .idle ∧
        opRule p (.startCountdown h) s = { beginCountdown h s with imask := false }) ∨
      opRule p (.startCountdown h) s = faulted s .protocolViolation 0x04 := by
  simp only [opRule]
  rcases commandRule_cases 0x04 (fun t => t.initDone && decide (t.cdState = .idle))
    (fun t => .ok (beginCountdown h t)) s with ⟨a, b, c⟩ | ⟨a, c⟩ <;> rw [c]
  · have b' : (s.initDone && decide (s.cdState = .idle)) = true := b
    simp only [Bool.and_eq_true, decide_eq_true_eq] at b'
    refine .inl ⟨a, b'.1, b'.2, ?_⟩
    unfold atomic beginCountdown
    beta_reduce
    split <;> rfl
  · exact .inr rfl

/-- What an encoding host command leaves: new content or a full buffer with CAPACITY_EXCEEDED, the
cursor unset; or PROTOCOL_VIOLATION and nothing else. -/
def EncodeOutcome (p : Params) (op : Byte) (s t : State) : Prop :=
  (∃ (buf : List ColImage) (len : Nat), buf.length = s.imgBuf.length ∧ len ≤ p.cap ∧
    (t = { s with imgBuf := buf, imgLen := len, curValid := false, imask := false } ∨
      t = { s with
        imgBuf := buf, imgLen := len, curValid := false, imask := false
        faultCode := .capacityExceeded, faultInfo := BitVec.ofNat 32 (p.cap + 1) })) ∨
  t = faulted s .protocolViolation (zext32 op)

theorem encodeCommand_cases (p : Params) (op : Byte) (body : State → Flow)
    (hb : ∃ cols, ∀ s, body s = pushAll p cols (beginContent s)) (s : State) :
    EncodeOutcome p op s (commandRule op (fun _ => true) body s) := by
  obtain ⟨cols, hc⟩ := hb
  rcases commandRule_cases op (fun _ => true) body s with ⟨-, -, c⟩ | ⟨-, c⟩ <;> rw [c]
  · obtain ⟨buf, len, h1, h2, e | e⟩ :=
      encode_cases (p := p) cols (maskInterrupts s) <;>
      refine .inl ⟨buf, len, h1, h2, ?_⟩ <;> unfold atomic <;> rw [hc, e]
    · exact .inl rfl
    · exact .inr rfl
  · exact .inr rfl

theorem displayText_cases (p : Params) (text : List Byte) (s : State) :
    EncodeOutcome p 0x02 s (opRule p (.displayText text) s) :=
  encodeCommand_cases p 0x02 _ ⟨_, textBody_eq_pushAll text⟩ s

theorem displayNumber_cases (p : Params) (n : Word) (s : State) :
    EncodeOutcome p 0x03 s (opRule p (.displayNumber n) s) :=
  encodeCommand_cases p 0x03 _ (numberBody_eq_pushAll _ n) s

/-! ## Internal steps -/

theorem appendGlyph_cases (p : Params) (c : Byte) (s : State) :
    ∃ (buf : List ColImage) (len : Nat), buf.length = s.imgBuf.length ∧
      (s.imgLen ≤ p.cap → len ≤ p.cap) ∧
      (opRule p (.appendGlyph c) s = { s with imgBuf := buf, imgLen := len } ∨
        opRule p (.appendGlyph c) s = { s with
          imgBuf := buf, imgLen := len
          faultCode := .capacityExceeded, faultInfo := BitVec.ofNat 32 (p.cap + 1) }) := by
  simp only [opRule, appendGlyph_eq_pushAll]
  obtain ⟨buf, len, h1, e | ⟨hl, e⟩⟩ :=
    pushAll_cases (p := p) (glyphColumns p.font c ++ [blankColumn]) s
  · refine ⟨buf, len, h1, fun h => pushAll_ok_le h e, ?_⟩
    rw [e]
    exact .inl rfl
  · refine ⟨buf, len, h1, fun _ => le_of_eq hl, ?_⟩
    rw [e]
    exact .inr rfl

theorem scrollIrq_cases (p : Params) (s : State) :
    (s.imgLen = 0 ∧ opRule p .scrollIrq s = { s with scrPend := false, imask := false }) ∨
      (s.imgLen ≠ 0 ∧ opRule p .scrollIrq s = { s with
        curIdx := nextCursor s, curValid := true
        frame := shiftIn s.frame (imgAt s (nextCursor s))
        scrPend := false, imask := false }) := by
  simp only [opRule, atomic, scrollTick]
  by_cases h : s.imgLen = 0
  · exact .inl ⟨h, by rw [if_neg (by simpa using h)]; rfl⟩
  · exact .inr ⟨h, by rw [if_pos (by simpa using h)]; rfl⟩

/-- The cursor a tick sets is in range (42_scroll.md R142). -/
theorem nextCursor_lt (s : State) (h : s.imgLen ≠ 0) : nextCursor s < s.imgLen := by
  unfold nextCursor
  split
  · omega
  · next hc =>
    simp at hc
    omega

theorem countSubtick_cases (p : Params) (s : State) :
    (s.cdSub = p.ticksPerHour - 1 ∧ opRule p .countSubtick s = { s with cdSub := 0, cdPend := true }) ∨
      (s.cdSub ≠ p.ticksPerHour - 1 ∧ opRule p .countSubtick s = { s with cdSub := s.cdSub + 1 }) := by
  simp only [opRule, subtick]
  split
  · next h => exact .inl ⟨h, rfl⟩
  · next h => exact .inr ⟨h, rfl⟩

/-! ## The storage form of the image buffer -/

theorem resetWith_storageWf (p : Params) : (State.resetWith p).storageWfFor p :=
  ⟨List.length_replicate, Nat.zero_le _⟩

theorem reset_storageWf : State.reset.storageWf := resetWith_storageWf Config.params

theorem storeColumn_storageWf {v : ColImage} {s : State} (h : s.storageWfFor p)
    (hl : s.imgLen ≠ p.cap) : (storeColumn v s).storageWfFor p :=
  ⟨by simpa using h.1, by have := h.2; simp; omega⟩

/-- Every operation of a block keeps the storage form. -/
theorem execWith_storageWf {i : Instr} {s t : State} (hs : s.storageWfFor p)
    (h : execWith p i s = .next t) : t.storageWfFor p := by
  have key : t.imgBuf.length = s.imgBuf.length ∧ (t.imgLen = s.imgLen ∨ t.imgLen ≤ p.cap) := by
    obtain ⟨-, -, e⟩ := execWith_eq_next.1 h
    cases i with
    | init => rcases init_cases p s with ⟨-, -, r⟩ | ⟨-, r⟩ <;> simp [← e, r, faulted]
    | displayText text =>
      obtain ⟨b, l, h1, h2, r | r⟩ | r := displayText_cases p text s
      · simp [← e, r, h1, h2]
      · simp [← e, r, h1, h2]
      · simp [← e, r, faulted]
    | displayNumber n =>
      obtain ⟨b, l, h1, h2, r | r⟩ | r := displayNumber_cases p n s
      · simp [← e, r, h1, h2]
      · simp [← e, r, h1, h2]
      · simp [← e, r, faulted]
    | startCountdown w =>
      rcases startCountdown_cases p w s with ⟨-, -, -, r⟩ | r
      · simp only [← e, r, beginCountdown]
        split <;> simp
      · simp [← e, r, faulted]
    | runDisplayLoop =>
      rcases runDisplayLoop_cases p s with ⟨-, -, r⟩ | ⟨-, r⟩ <;> simp [← e, r, faulted]
    | scrollExpire => simp [← e, opRule]
    | scrollIrq => rcases scrollIrq_cases p s with ⟨-, r⟩ | ⟨-, r⟩ <;> simp [← e, r]
    | countSubtick => rcases countSubtick_cases p s with ⟨-, r⟩ | ⟨-, r⟩ <;> simp [← e, r]
    | countIrq =>
      obtain ⟨-, r⟩ | ⟨-, b, l, h1, h2, r | r⟩ := countIrq_cases p s
      · simp [← e, r]
      · simp [← e, r, h1, h2]
      · simp [← e, r, h1, h2]
    | drvSnapshot => simp [← e, opRule, atomic]
    | drvColOn => simp only [← e, opRule]; rcases colOnBody_cases p s with ⟨-, r⟩ | ⟨-, r⟩ <;> simp [r]
    | drvRow =>
      simp only [← e, opRule]
      rcases rowBody_cases p s with ⟨-, r⟩ | ⟨-, r⟩
      · rcases advanceRow_cases .dwell (setOut (.row s.drvR) (rowLevel s) (useDraw p s)) with
          ⟨_, q⟩ | ⟨_, q⟩ <;> simp [r, q]
      · simp [r]
    | drvDwell => simp [← e, opRule]
    | drvRowOff =>
      simp only [← e, opRule]
      rcases rowOffBody_cases p s with ⟨-, r⟩ | ⟨-, r⟩
      · rcases advanceRow_cases .colOff (setOut (.row s.drvR) .high (useDraw p s)) with
          ⟨_, q⟩ | ⟨_, q⟩ <;> simp [r, q]
      · simp [r]
    | drvColOff =>
      simp only [← e, opRule]
      rcases colOffBody_cases p s with ⟨-, r⟩ | ⟨-, r⟩
      · rcases advanceColumn_cases (setOut (.col s.drvC) .low (useDraw p s)) with
          ⟨_, q⟩ | ⟨_, q⟩ <;> simp [r, q]
      · simp [r]
    | fontLookup c => simp [← e, opRule]
    | appendGlyph c =>
      obtain ⟨b, l, h1, h2, r | r⟩ := appendGlyph_cases p c s <;>
        simp [← e, r, h1, h2 hs.2]
  refine ⟨key.1.trans hs.1, ?_⟩
  rcases key.2 with h | h
  · exact h ▸ hs.2
  · exact h

/-- Every operation keeps the storage form. -/
theorem exec_storageWf {i : Instr} {s t : State} (hs : s.storageWf) (h : exec i s = .next t) :
    t.storageWf := execWith_storageWf hs (exec_eq_execWith ▸ h)

/-! ## Outputs -/

theorem set_row_ne (v : Vector Level 9) (i j : Fin 9) (x : Level) (h : j ≠ i) :
    (v.set i x)[j] = v[j] := by
  have : i.val ≠ j.val := fun e => h (Fin.ext e.symm)
  simp [Vector.getElem_set_ne, this]

theorem set_col_ne (v : Vector Level 3) (i j : Fin 3) (x : Level) (h : j ≠ i) :
    (v.set i x)[j] = v[j] := by
  have : i.val ≠ j.val := fun e => h (Fin.ext e.symm)
  simp [Vector.getElem_set_ne, this]

theorem set_row_eq (v : Vector Level 9) (i : Fin 9) (x : Level) : (v.set i x)[i] = x := by
  simp

theorem set_col_eq (v : Vector Level 3) (i : Fin 3) (x : Level) : (v.set i x)[i] = x := by
  simp

end Sys2Proof.Machine
end

