-- ==== Sys2Proof/Laws/PerInstr.lean ====
section
/-!
SUPPORT. The statement made of every operation as syntax, and one lemma per constructor: the first
byte of an operation's encoding is its opcode or step id, and a host command's length is the one its
first two bytes decide, whatever follows (30_encoding.md R83, R89, R92).
-/

namespace Sys2Proof.Laws.EncodingLength

/-- 30_encoding.md R83, R89, R92. -/
def Statement (i : Instr) : Prop :=
  (encode i).head? = some i.opcode ∧
    (i.wellFormed = true → (encode i).length ≤ longestLength ∧
      (i.isHostCommand = true → ∀ rest : List Byte,
        commandLength (encode i ++ rest) = some (encode i).length))

theorem init : Statement .init := ⟨rfl, fun _ => ⟨by decide, fun _ _ => rfl⟩⟩

theorem displayText (text : List Byte) : Statement (.displayText text) := by
  refine ⟨rfl, fun h => ?_⟩
  have hl : text.length ≤ 255 := by simpa [Instr.wellFormed] using h
  refine ⟨by simp [encode, longestLength]; omega, fun _ rest => ?_⟩
  simp only [encode, List.cons_append, commandLength, if_true, List.head?_cons, Option.map_some,
    List.length_cons, BitVec.toNat_ofNat]
  congr 1
  omega

theorem displayNumber (n : Word) : Statement (.displayNumber n) :=
  ⟨rfl, fun _ => ⟨by simp [encode, bytesOfWord, longestLength], fun _ _ => rfl⟩⟩

theorem startCountdown (h : Word) : Statement (.startCountdown h) :=
  ⟨rfl, fun _ => ⟨by simp [encode, bytesOfWord, longestLength], fun _ _ => rfl⟩⟩

theorem runDisplayLoop : Statement .runDisplayLoop := ⟨rfl, fun _ => ⟨by decide, fun _ _ => rfl⟩⟩

theorem scrollExpire : Statement .scrollExpire := ⟨rfl, fun _ => ⟨by decide, fun h => by cases h⟩⟩

theorem scrollIrq : Statement .scrollIrq := ⟨rfl, fun _ => ⟨by decide, fun h => by cases h⟩⟩

theorem countSubtick : Statement .countSubtick := ⟨rfl, fun _ => ⟨by decide, fun h => by cases h⟩⟩

theorem countIrq : Statement .countIrq := ⟨rfl, fun _ => ⟨by decide, fun h => by cases h⟩⟩

theorem drvSnapshot : Statement .drvSnapshot := ⟨rfl, fun _ => ⟨by decide, fun h => by cases h⟩⟩

theorem drvColOn : Statement .drvColOn := ⟨rfl, fun _ => ⟨by decide, fun h => by cases h⟩⟩

theorem drvRow : Statement .drvRow := ⟨rfl, fun _ => ⟨by decide, fun h => by cases h⟩⟩

theorem drvDwell : Statement .drvDwell := ⟨rfl, fun _ => ⟨by decide, fun h => by cases h⟩⟩

theorem drvRowOff : Statement .drvRowOff := ⟨rfl, fun _ => ⟨by decide, fun h => by cases h⟩⟩

theorem drvColOff : Statement .drvColOff := ⟨rfl, fun _ => ⟨by decide, fun h => by cases h⟩⟩

theorem fontLookup (c : Byte) : Statement (.fontLookup c) :=
  ⟨rfl, fun _ => ⟨by simp [encode, longestLength], fun h => by cases h⟩⟩

theorem appendGlyph (c : Byte) : Statement (.appendGlyph c) :=
  ⟨rfl, fun _ => ⟨by simp [encode, longestLength], fun h => by cases h⟩⟩

end Sys2Proof.Laws.EncodingLength
end

