-- ==== Sys2Proof/Laws/Runs.lean ====
section
/-!
SUPPORT. Runs along a list of agents, and one tick as a whole.
-/

namespace Sys2Proof.Machine

theorem runBy_cons {run : Operations} {c : Choice} {cs : List Choice} {s t : State}
    (h : stepBy run c s = .next t) : runBy run (c :: cs) s = runBy run cs t := by
  simp only [runBy, h]

/-- A run is its first part and then the rest. -/
theorem runBy_append {run : Operations} {a b : List Choice} {s t : State}
    (h : runBy run a s = .next t) : runBy run (a ++ b) s = runBy run b t := by
  induction a generalizing s with
  | nil =>
    cases h
    rfl
  | cons c cs ih =>
    simp only [runBy] at h
    split at h
    · next u e =>
      rw [List.cons_append, runBy_cons e]
      exact ih h
    · cases h
    · cases h

theorem runAs_cons {c : Choice} {cs : List Choice} {s t : State} (h : stepAs c s = .next t) :
    runAs (c :: cs) s = runAs cs t := runBy_cons h

theorem runAs_append {a b : List Choice} {s t : State} (h : runAs a s = .next t) :
    runAs (a ++ b) s = runAs b t := runBy_append h

theorem ticks_succ (k : Nat) : ticks (k + 1) = ticks k ++ [.scrollTimer, .scrollHandler] := by
  induction k with
  | zero => rfl
  | succ k ih =>
    conv_lhs => rw [ticks, ih]
    rfl

/-- One tick of 95_test_vectors.md, SCROLL_EXPIRE and then SCROLL_IRQ, with content in the buffer. -/
theorem runAs_tick {s : State} (hf : s.faultCode = .none) (he : s.scrEn = true)
    (hl : s.imgLen ≠ 0) :
    runAs [.scrollTimer, .scrollHandler] s = .next { s with
      curIdx := nextCursor s, curValid := true
      frame := shiftIn s.frame (imgAt s (nextCursor s))
      scrPend := false, imask := false } := by
  have h1 : stepAs .scrollTimer s = .next (setPending .scroll s) := by
    rw [stepAs_running hf]
    exact exec_enabled (i := .scrollExpire) hf he
  have h2 : stepAs .scrollHandler (setPending .scroll s) =
      .next (opRule Config.params .scrollIrq (setPending .scroll s)) := by
    rw [stepAs_running (by simpa using hf)]
    exact exec_enabled (i := .scrollIrq) (by simpa using hf) rfl
  rw [runAs_cons h1, runAs_cons h2]
  rcases scrollIrq_cases Config.params (setPending .scroll s) with ⟨h, -⟩ | ⟨-, r⟩
  · exact absurd h hl
  · rw [r]
    rfl

/-- The cursor of a set cursor in range goes on cyclically (42_scroll.md R142). -/
theorem nextCursor_eq_mod {s : State} (hv : s.curValid = true) (hlt : s.curIdx < s.imgLen) :
    nextCursor s = (s.curIdx + 1) % s.imgLen := by
  unfold nextCursor
  simp only [hv, Bool.not_true, Bool.false_or, decide_eq_true_eq]
  split
  · next h =>
    rw [show s.curIdx + 1 = s.imgLen by omega, Nat.mod_self]
  · next h => rw [Nat.mod_eq_of_lt (by omega)]

end Sys2Proof.Machine
end

