-- ==== Sys2Proof/Tests/Slice0.lean ====
section
/-!
SUPPORT. Tests with results from spec/95_test_vectors.md and the rules, and for every statement with
hypotheses a witness that meets them. The fixtures FX and PM_FX are those of 92_eei_decisions.md.
-/

namespace Sys2Proof.Tests

open Sys2Proof Sys2Proof.Machine

/-! ## Helpers -/

/-- What is read off the next state; none where there is none. -/
def after {α : Type} (f : State → α) : Host.Outcome State Fault Refusal → Option α
  | .next t => some (f t)
  | .fault _ => none
  | .refused _ => none

/-- The fault a step stops with. -/
def faultOf : Host.Outcome State Fault Refusal → Option Fault
  | .next _ => none
  | .fault r => some r
  | .refused _ => none

/-- The refusal a step stops with. -/
def refusalOf : Host.Outcome State Fault Refusal → Option Refusal
  | .next _ => none
  | .fault _ => none
  | .refused r => some r

/-- FAULT_CODE and FAULT_INFO. -/
def faultRegs (s : State) : FaultCode × Word := (s.faultCode, s.faultInfo)

/-- The glyphs of FX (92_eei_decisions.md). -/
def fxGlyph (c : Byte) : Option Glyph :=
  if c = 0x31 then some (.narrow 0b11111)
  else if c = 0x3D then some (.medium 0b01010 0b01010)
  else if c = 0x30 then some (.wide 0b11111 0b10001 0b11111)
  else if c = 0x32 then some (.wide 0b10111 0b10101 0b11101)
  else if c = 0x33 then some (.wide 0b10101 0b10101 0b11111)
  else if c = 0x34 then some (.wide 0b11100 0b00100 0b11111)
  else if c = 0x35 then some (.wide 0b11101 0b10101 0b10111)
  else if c = 0x36 then some (.wide 0b11111 0b10101 0b10111)
  else if c = 0x37 then some (.wide 0b10000 0b10000 0b11111)
  else if c = 0x38 then some (.wide 0b11111 0b10101 0b11111)
  else if c = 0x39 then some (.wide 0b11101 0b10101 0b11111)
  else none

/-- FX (92_eei_decisions.md). -/
def fx : FontRom := FontRom.ofGlyphs fxGlyph (by decide) (by decide) (by decide) (by decide)

/-- The rows of PM_FX's table (92_eei_decisions.md). -/
def pmFxTable : Vector (Vector (Fin 9 × Fin 3) 5) 5 :=
  #v[#v[(0, 0), (3, 1), (1, 0), (4, 1), (2, 0)],
    #v[(3, 2), (4, 2), (5, 2), (6, 2), (7, 2)],
    #v[(1, 1), (8, 0), (2, 1), (8, 2), (0, 1)],
    #v[(7, 0), (6, 0), (5, 0), (4, 0), (3, 0)],
    #v[(2, 2), (6, 1), (0, 2), (5, 1), (1, 2)]]

/-- PM_FX (92_eei_decisions.md); its injectivity is V1.7. -/
def pmFx : PosMap := ⟨fun r k => pmFxTable[r][k], by decide⟩

/-- The fixtures, with a capacity. -/
def fxParams (cap : Nat) : Params := ⟨cap, fx, pmFx, 28800, 24, true⟩

/-- The state after INIT (44_tick_scheduler.md R190). -/
def afterInit : State := { State.reset with initDone := true, scrEn := true }

/-- After INIT, with the content of `TEXT "1"` (V1.1). -/
def withOne : State :=
  { afterInit with
    imgBuf := [0b11111, 0, 0, 0, 0, 0, 0] ++ List.replicate 25 0
    imgLen := 7 }

/-- After INIT, START_COUNTDOWN `h`, and a roll-over (44_tick_scheduler.md R193). -/
def hourPending (h : Word) : State :=
  { afterInit with cdState := .running, cdHours := h, cdEn := true, cdPend := true }

/-- In the driver's phase, with write outcomes to come. -/
def inPhase (ph : DrvPhase) (pins : List Bool) : State :=
  { afterInit with loopRun := true, drvPhase := ph, pinScript := pins }

/-- The image of V5.3 under PM_FX. -/
def physOfV53 : Vector (Vector Bool 3) 9 :=
  transform pmFx #v[0, 0, 0, 0, 0b11111]

/-! ## Well-formedness -/

theorem wellFormed_displayText (text : List Byte) :
    (Instr.displayText text).wellFormed = true ↔ text.length ≤ 255 := decide_eq_true_iff

/-- R85: 255 characters are encodable, 256 are not. -/
theorem test_wellFormed_text :
    (Instr.displayText (List.replicate 255 0x31)).wellFormed = true ∧
      (Instr.displayText (List.replicate 256 0x31)).wellFormed ≠ true := by
  rw [wellFormed_displayText, Ne, wellFormed_displayText, List.length_replicate,
    List.length_replicate]
  omega

/-! ## Decoding: words written out from R83, R86 and R92 -/

theorem test_decode_init : decodeHost [0b00000001, 0x05] = .command .init [0x05] := by decide

/-- P2, `TEXT "A1 "` of V3.2 and a following RUN. -/
theorem test_decode_displayText :
    decodeHost [0x02, 0x03, 0x41, 0x31, 0x20, 0x05] =
      .command (.displayText [0x41, 0x31, 0x20]) [0x05] := by decide

/-- V7.15: operand 0x000002A2 from A2 02 00 00. -/
theorem test_decode_displayNumber :
    decodeHost [0x03, 0xA2, 0x02, 0x00, 0x00] = .command (.displayNumber 674) [] := by decide

/-- R85: byte 4 is the most significant. -/
theorem test_decode_startCountdown :
    decodeHost [0x04, 0x01, 0x02, 0x03, 0x84] = .command (.startCountdown 0x84030201) [] := by
  decide

theorem test_decode_runDisplayLoop : decodeHost [0b00000101] = .command .runDisplayLoop [] := by
  decide

/-- V7.1 to V7.4: 00, 06, 80 and FF are reserved. -/
theorem test_decode_reserved :
    decodeHost [0x00, 0x01] = .reserved 0x00 [0x01] ∧ decodeHost [0x06] = .reserved 0x06 [] ∧
      decodeHost [0x80] = .reserved 0x80 [] ∧ decodeHost [0xFF] = .reserved 0xFF [] := by decide

/-- V7.13, V7.14 and the empty string: too short. -/
theorem test_decode_tooShort :
    decodeHost [0x03, 0x1C, 0x00, 0x00] = .tooShort ∧
      decodeHost [0x02, 0x03, 0x31, 0x31] = .tooShort ∧ decodeHost [0x02] = .tooShort ∧
      decodeHost [] = .tooShort := by decide

/-- R92's table, the timers and handlers. -/
theorem test_decode_timer_ids :
    decodeStepId [0x80] = some (.scrollExpire, []) ∧ decodeStepId [0x81] = some (.scrollIrq, []) ∧
      decodeStepId [0x82] = some (.countSubtick, []) ∧
      decodeStepId [0x83] = some (.countIrq, []) := by decide

/-- R92's table, the driver. -/
theorem test_decode_driver_ids :
    decodeStepId [0x84] = some (.drvSnapshot, []) ∧
      decodeStepId [0x85] = some (.drvColOn, []) ∧ decodeStepId [0x86] = some (.drvRow, []) ∧
      decodeStepId [0x87] = some (.drvDwell, []) ∧ decodeStepId [0x88] = some (.drvRowOff, []) ∧
      decodeStepId [0x89] = some (.drvColOff, []) := by decide

/-- R92's table, the sub-operations; 0x8C is no id. -/
theorem test_decode_sub_ids :
    decodeStepId [0x8A, 0x31] = some (.fontLookup 0x31, []) ∧
      decodeStepId [0x8B, 0x31] = some (.appendGlyph 0x31, []) ∧ decodeStepId [0x8C] = none := by
  decide

/-- P3: the bytes of the countdown program. -/
theorem test_assemble_program :
    assemble [.init, .countdown 1, .days 1, .run] =
      some [0x01, 0x04, 0x01, 0x00, 0x00, 0x00, 0x03, 0x00, 0x00, 0x00, 0x00, 0x05] := by decide

/-- R93: the source text `TEXT "\x31", a comment`, as character codes. -/
theorem test_assemble_text :
    parseProgram [[0x54, 0x45, 0x58, 0x54, 0x20, 0x22, 0x5C, 0x78, 0x33, 0x31, 0x22, 0x20, 0x3B]] =
      some [.text [0x31]] := by decide

/-! ## Host commands -/

/-- V6.1: INIT from reset. -/
theorem test_init :
    after (fun t => (t.initDone, t.scrEn, t.scrPend)) (exec .init State.reset) =
      some (true, true, false) := by decide

/-- V7.6: a second INIT. -/
theorem test_init_twice :
    after faultRegs (exec .init afterInit) = some (.protocolViolation, 0x01) := by decide

/-- V1.1: `TEXT "1"`, for any font. -/
theorem test_displayText :
    after (fun t => (content t, t.imgLen, t.curValid)) (exec (.displayText [0x31]) State.reset) =
      some ([0b11111, 0, 0, 0, 0, 0, 0], 7, false) := by decide

/-- V3.7: 14 times '1' overflows at the 33rd push. -/
theorem test_displayText_overflows :
    after (fun t => (faultRegs t, t.imgLen))
      (exec (.displayText (List.replicate 14 0x31)) State.reset) =
      some ((.capacityExceeded, 33), 32) := by decide

/-- V1.2 with FX: `NUMBER 28`. -/
theorem test_displayNumber :
    after content (execWith (fxParams 32) (.displayNumber 28) State.reset) =
      some ([0b10111, 0b10101, 0b11101, 0, 0b11111, 0b10101, 0b11111] ++ List.replicate 6 0) := by
  decide

/-- V3.13: `NUMBER 28` with CAP = 10 faults at the 11th push. -/
theorem test_displayNumber_overflows :
    after faultRegs (execWith (fxParams 10) (.displayNumber 28) (State.resetWith (fxParams 10))) =
      some (.capacityExceeded, 11) := by decide

/-- V6.3: `COUNTDOWN 674` after INIT. -/
theorem test_startCountdown :
    after (fun t => (t.cdState, t.cdHours, t.cdSub, t.cdEn, t.cdPend))
      (exec (.startCountdown 674) { afterInit with cdSub := 5 }) =
      some (.running, 674, 0, true, false) := by decide

/-- V6.2: `COUNTDOWN 0` stops at once. -/
theorem test_startCountdown_zero :
    after (fun t => (t.cdState, t.cdHours, t.cdEn)) (exec (.startCountdown 0) afterInit) =
      some (.stopped, 0, false) := by decide

/-- R163's example. -/
theorem test_runDisplayLoop :
    after (fun t => (t.loopRun, t.drvPhase)) (exec .runDisplayLoop afterInit) =
      some (true, .snap) := by decide

/-- V7.5: RUN before INIT. -/
theorem test_runDisplayLoop_early :
    after faultRegs (exec .runDisplayLoop State.reset) = some (.protocolViolation, 0x05) := by
  decide

/-- V7.12: after RUN a reserved opcode is reported as such. -/
theorem test_reserved_opcode :
    after faultRegs (stepAs .host { inPhase .snap [] with hostQueue := [0x07] }) =
      some (.illegalCommand, 0x07) := by decide

/-! ## Font and encoder steps -/

/-- V2.4, V2.5 with FX: '=' is in W2, 'A' in none. -/
theorem test_fontLookup_classes :
    fontLookup fx 0x3D = some [0b01010, 0b01010] ∧ fontLookup fx 0x41 = none := by decide

/-- V1.9, for any font; V2.9: the operation writes nothing. -/
theorem test_fontLookup :
    fontLookup Config.fontRom 0x31 = some [0b11111] ∧
      after (fun t => decide (t = withOne)) (exec (.fontLookup 0x31) withOne) = some true := by
  decide

/-- V1.9: APPEND_GLYPH of '1' from an empty buffer. -/
theorem test_appendGlyph :
    after content (exec (.appendGlyph 0x31) State.reset) = some [0b11111, 0b00000] := by decide

/-- R112: an unsupported character is one blank column. -/
theorem test_appendGlyph_unsupported :
    content (settle (appendGlyph (fxParams 32) 0x41 State.reset)) = [0b00000] := by decide

/-- V8: the digits of 100. -/
theorem test_emitDigits_order :
    content (settle (numberBody (fxParams 32) 100 State.reset)) =
      [0b11111, 0, 0b11111, 0b10001, 0b11111, 0, 0b11111, 0b10001, 0b11111, 0, 0, 0, 0, 0, 0] := by
  decide

/-! ## Scroll -/

/-- V4.4: an expiry while the flag is set changes nothing. -/
theorem test_scrollExpire :
    after (fun t => decide (t = { afterInit with scrPend := true }))
      (exec .scrollExpire { afterInit with scrPend := true }) = some true := by decide

/-- V4.7: not enabled before INIT. -/
theorem test_scrollExpire_early :
    faultOf (exec .scrollExpire State.reset) = some (.notEnabled 0x80) := by decide

/-- V4.1, tick 2. -/
theorem test_scrollIrq :
    after (fun t => (t.curIdx, t.frame, t.scrPend)) (exec .scrollIrq { withOne with
      scrPend := true, curValid := true, curIdx := 0, frame := #v[0, 0, 0, 0, 0b11111] }) =
      some (1, #v[0, 0, 0, 0b11111, 0], false) := by decide

/-- V4.6: the cursor at the end. -/
theorem test_scrollIrq_wraps :
    after (fun t => (t.curIdx, t.frame)) (exec .scrollIrq { withOne with
      scrPend := true, curValid := true, curIdx := 6 }) =
      some (0, #v[0, 0, 0, 0, 0b11111]) := by decide

/-! ## Countdown -/

/-- V6.4: the tick before the roll-over. -/
theorem test_countSubtick :
    after (fun t => (t.cdSub, t.cdPend))
      (exec .countSubtick { afterInit with cdEn := true, cdSub := 28798 }) =
      some (28799, false) := by decide

/-- V6.5: the roll-over. -/
theorem test_countSubtick_rolls :
    after (fun t => (t.cdSub, t.cdPend))
      (exec .countSubtick { afterInit with cdEn := true, cdSub := 28799 }) = some (0, true) := by
  decide

/-- V6.7: 25 hours to 24, shown as 1, for any font. -/
theorem test_countIrq :
    after (fun t => (t.cdHours, t.cdState, t.cdPend, content t)) (exec .countIrq (hourPending 25)) =
      some (24, .running, false, [0b11111, 0, 0, 0, 0, 0, 0]) := by decide

/-- V6.8 with FX: the last hour stops the countdown and shows 0. -/
theorem test_countIrq_stops :
    after (fun t => (t.cdHours, t.cdState, t.cdEn, t.cdPend, t.imgLen))
      (execWith (fxParams 32) .countIrq (hourPending 1)) = some (0, .stopped, false, false, 9) := by decide

/-- V6.10: CAP = 10, the decrement and CD_PEND stay. -/
theorem test_countIrq_overflows :
    after (fun t => (faultRegs t, t.cdHours, t.cdPend)) (stepAsWith (fxParams 10) .countHandler
      { hourPending 674 with imgBuf := (State.resetWith (fxParams 10)).imgBuf }) =
      some ((.capacityExceeded, 11), 673, true) := by decide

/-! ## Driver -/

/-- V5.3, DRV_PHYS: (2,0), (3,0), (0,1), (1,2), (7,2). -/
theorem test_transform :
    ∀ (pr : Fin 9) (pc : Fin 3), physOfV53[pr][pc] =
      decide ((pr, pc) ∈ [((2 : Fin 9), (0 : Fin 3)), (3, 0), (0, 1), (1, 2), (7, 2)]) := by decide

/-- R164: DRV_C is reset, the phase goes on. -/
theorem test_drvSnapshot :
    after (fun t => (t.drvC, t.drvPhase)) (exec .drvSnapshot { inPhase .snap [] with drvC := 2 }) =
      some (0, .colOn) := by decide

/-- R165's example. -/
theorem test_drvColOn :
    after (fun t => (t.colOut, t.drvR, t.drvPhase))
      (exec .drvColOn { inPhase .colOn [false] with drvC := 1, drvR := 8 }) =
      some (#v[.low, .high, .low], 0, .row) := by decide

/-- V7.17: the first COL_ON fails. -/
theorem test_drvColOn_fails :
    after (fun t => (faultRegs t, t.colOut)) (exec .drvColOn (inPhase .colOn [true])) =
      some ((.gpioWriteFailure, 0x10), #v[.low, .low, .low]) := by decide

/-- R166's example: DRV_PHYS[3][0] = 1 drives row 3 low. -/
theorem test_drvRow :
    after (fun t => (t.rowOut[3], t.drvR)) (exec .drvRow
      { inPhase .row [false] with drvR := 3, drvPhys := physOfV53 }) = some (.low, 4) := by decide

/-- Row 8 ends the ROW phase; an unlit row is HIGH. -/
theorem test_drvRow_last :
    after (fun t => (t.rowOut[8], t.drvR, t.drvPhase)) (exec .drvRow
      { inPhase .row [false] with drvR := 8, drvPhys := physOfV53 }) =
      some (.high, 8, .dwell) := by decide

/-- R167's example. -/
theorem test_drvDwell :
    after (fun t => (t.drvPhase, t.drvR, t.drvC))
      (exec .drvDwell { inPhase .dwell [] with drvC := 2, drvR := 8 }) =
      some (.rowOff, 0, 2) := by decide

/-- R168's example. -/
theorem test_drvRowOff :
    after (fun t => (t.rowOut[8], t.drvPhase)) (exec .drvRowOff { inPhase .rowOff [false] with
      drvR := 8, rowOut := State.reset.rowOut.set 8 .low }) = some (.high, .colOff) := by decide

/-- V7.17: a failed row write records the row. -/
theorem test_drvRowOff_fails :
    after faultRegs (exec .drvRowOff { inPhase .rowOff [true] with drvR := 1 }) =
      some (.gpioWriteFailure, 0x01) := by decide

/-- R169's example. -/
theorem test_drvColOff :
    after (fun t => (t.colOut, t.drvPhase, t.drvC)) (exec .drvColOff { inPhase .colOff [false] with
      drvC := 2, colOut := #v[.low, .low, .high] }) =
      some (#v[.low, .low, .low], .snap, 2) := by decide

/-- Column 1 goes on to column 2. -/
theorem test_drvColOff_next :
    after (fun t => (t.drvPhase, t.drvC))
      (exec .drvColOff { inPhase .colOff [false] with drvC := 1 }) = some (.colOn, 2) := by decide

/-! ## The block's step -/

/-- R252: nothing runs from reset. -/
theorem test_step_idle :
    faultOf (step { State.reset with sched := [.driver] }) = some .idle := by decide

/-- V7.13: the host is stuck on a short command. -/
theorem test_step_truncated :
    refusalOf (step { State.reset with sched := [.host], hostQueue := [0x03, 0x1C, 0x00, 0x00] }) =
      some .truncatedCommand := by decide

/-- V7.16: no step after a fault. -/
theorem test_step_halted :
    faultOf (step { State.reset with faultCode := .illegalCommand, faultInfo := 6, hostQueue := [1] })
      = some (.halted .illegalCommand 6) := by decide

/-- A table word placed as the next step runs it. -/
theorem test_withFetchWord :
    after (fun t => t.initDone) (step (State.reset.withFetchWord 8 0x01)) = some true ∧
      after (fun t => t.scrPend) (step (State.reset.withFetchWord 8 0x80)) = some true ∧
      after (fun t => t.drvPhase) (step (State.reset.withFetchWord 8 0x87)) = some .rowOff := by
  decide

/-- R30: registers by id, zero-extended. -/
theorem test_controlValue :
    controlValue (hourPending 674) .cdState = 1 ∧ controlValue (hourPending 674) .cdHours = 674 ∧
      ControlReg.faultInfo.id = 0x0A ∧ DrvPhase.colOff.code = 6 := by decide

/-! ## Witnesses: for each statement with hypotheses, states and operands that meet them, with a
boundary value for each of its clauses. The names are `witness_` and the statement's. -/

theorem witness_DecodeHostOfEncode :
    (Instr.displayText (List.replicate 255 0x31)).wellFormed = true ∧
      (Instr.displayText (List.replicate 255 0x31)).isHostCommand = true ∧
      (Instr.displayText []).wellFormed = true ∧ Instr.init.isHostCommand = true ∧
      (Instr.startCountdown 0xFFFFFFFF).wellFormed = true :=
  ⟨test_wellFormed_text.1, rfl, rfl, rfl, rfl⟩

theorem witness_InternalStepIdsAreNoCommands :
    Instr.scrollExpire.isHostCommand = false ∧ (Instr.appendGlyph 0xFF).isHostCommand = false :=
  ⟨rfl, rfl⟩

theorem witness_DecodedCommandIsItsEncoding :
    decodeHost [0x02, 0x01, 0x31, 0x05] = .command (.displayText [0x31]) [0x05] ∧
      decodeHost [0x02, 0x00] = .command (.displayText []) [] ∧
      decodeHost [0x05, 0x07] = .command .runDisplayLoop [0x07] := by decide

/-- For the clauses: an FW command with 3 and with 4 bytes after its opcode, an FT command without
its length byte, with one character too few and with exactly enough, the reserved opcodes at the ends
of their ranges, and a host stuck on a short string. -/
theorem witness_CommandLengthIsDecidedByItsFirstBytes :
    ([0x1C, 0, 0] : List Byte).length < 4 ∧ 4 ≤ ([0x1C, 0, 0, 0] : List Byte).length ∧
      ([0x31] : List Byte).length < (2 : Byte).toNat ∧
      (2 : Byte).toNat ≤ ([0x31, 0x31] : List Byte).length ∧
      (0 : Byte).toNat ≤ ([] : List Byte).length ∧
      6 ≤ (0x06 : Byte).toNat ∧ 6 ≤ (0xFF : Byte).toNat ∧
      decodeHost { State.reset with hostQueue := [0x02, 0x01] }.hostQueue = .tooShort := by decide

/-- For the clauses: texts of 255 and of 256 bytes, the largest number and the one above it, a line that
assembles. -/
theorem witness_AssembledLinesDecode :
    (List.replicate 255 (0x31 : Byte)).length ≤ 255 ∧
      255 < (List.replicate 256 (0x31 : Byte)).length ∧ 4294967295 < 2 ^ 32 ∧
      2 ^ 32 ≤ 4294967296 ∧ assembleLine (.text [0x31]) = some [0x02, 0x01, 0x31] ∧
      assembleLine (.number 674) = some [0x03, 0xA2, 0x02, 0x00, 0x00] := by
  refine ⟨?_, ?_, by decide, by decide, by decide, by decide⟩ <;> rw [List.length_replicate]
  decide

theorem witness_StepExecutesHostCommand :
    ∀ s : State, s = { State.reset with hostQueue := [0x01, 0x05], sched := [.host] } →
      s.faultCode = .none ∧ nextAgent s = some .host ∧
        decodeHost s.hostQueue = .command .init [0x05] := by
  rintro s rfl
  decide

/-- Every agent and every phase. -/
theorem witness_StepExecutesAgentStep :
    nextAgent { afterInit with sched := [.scrollTimer] } = some .scrollTimer ∧
      nextAgent { hourPending 1 with sched := [.countTimer] } = some .countTimer ∧
      nextAgent { afterInit with scrPend := true, sched := [.scrollHandler] } =
        some .scrollHandler ∧
      nextAgent { hourPending 1 with sched := [.countHandler] } = some .countHandler ∧
      (∀ ph ∈ [DrvPhase.snap, .colOn, .row, .dwell, .rowOff, .colOff],
        nextAgent { inPhase ph [] with sched := [.driver] } = some .driver) ∧
      (inPhase .snap []).faultCode = .none := by decide

theorem witness_AnyEnabledAgentMayGoNext :
    nextAgent { afterInit with sched := [.driver] } = some .scrollTimer ∧
      (after (fun t => t.scrPend) (step { afterInit with sched := [.scrollTimer] })) =
        some true := by decide

theorem witness_EnabledStepsComplete :
    enabled .host { State.reset with hostQueue := [0xFF] } = true ∧
      enabled .driver (inPhase .colOff [true]) = true ∧
      enabled .countHandler (hourPending 0) = true := by decide

theorem witness_HaltedBlockHasNoStep :
    (faulted State.reset .capacityExceeded 33).faultCode ≠ .none := by decide

theorem witness_OnlyTheHostStepsFirst :
    enabled .host { State.reset with hostQueue := [0x06] } = true := by decide

theorem blank_frame : ∀ r k : Fin 5, frameBit State.reset.frame r k = false := by decide

theorem blank_phys : ∀ (i : Fin 9) (j : Fin 3), State.reset.drvPhys[i][j] = false := by decide

/-- The blank DRV_PHYS is the transform of the blank frame, under any map. -/
theorem blank_snapshot : ∃ f, State.reset.drvPhys = transform Config.posMap f := by
  refine ⟨State.reset.frame, ?_⟩
  ext pr hpr pc hpc
  have := transform_apply Config.posMap State.reset.frame ⟨pr, hpr⟩ ⟨pc, hpc⟩
  simp only [Fin.getElem_fin] at this
  rw [this]
  have hb : transformBit Config.posMap State.reset.frame ⟨pr, hpr⟩ ⟨pc, hpc⟩ = false := by
    rw [Bool.eq_false_iff]
    intro hc
    obtain ⟨r, k, -, hl⟩ := anyMapped_eq_true.1 hc
    rw [blank_frame r k] at hl
    cases hl
  rw [hb]
  exact blank_phys ⟨pr, hpr⟩ ⟨pc, hpc⟩

/-- All rows are inactive, and show a blank snapshot. -/
theorem blank_rows : ∀ r : Fin 9, State.reset.rowOut[r] = .high := by decide

theorem blank_shows : ∀ r : Fin 9, rowShows State.reset r := by
  unfold rowShows
  decide

theorem witness_EveryStepKeepsTheInvariants :
    ∀ s : State, s = { State.reset with hostQueue := [0x01], sched := [.host] } →
      Machine.Inv s ∧ after (fun t => t.initDone) (step s) = some true := by
  rintro s rfl
  exact ⟨⟨reset_storageWf, by decide, by decide, blank_rows, blank_snapshot, by decide, by decide,
    by decide, by decide, by decide, by decide, by decide, by decide, by decide, by decide,
    by decide⟩, by decide⟩

/-- The decimal characters of 2222222 are seven times '2', each three columns wide. -/
theorem decimalText_seven_twos : decimalText 2222222 = List.replicate 7 0x32 := by
  rw [decimalText, if_neg (by decide)]
  norm_num
  decide

/-- Six three-column characters and a '1' of one column. -/
theorem decimalText_twos_and_one : decimalText 2222221 = List.replicate 6 0x32 ++ [0x31] := by
  rw [decimalText, if_neg (by decide)]
  norm_num
  decide

theorem decimalText_eight_twos : decimalText 22222222 = List.replicate 8 0x32 := by
  rw [decimalText, if_neg (by decide)]
  norm_num
  decide

theorem decimalText_one : decimalText 1 = [0x31] := by
  rw [decimalText, if_neg (by decide)]
  norm_num
  decide

/-- The fixtures with a capacity of 10 and with writes that cannot fail. -/
def smallParams : Params := { fxParams 10 with gpioMayFail := false }

/-- A block of capacity 10: from reset with INIT offered, a step. -/
theorem witness_EveryBlockKeepsTheInvariants :
    smallParams.ticksPerHour ≠ 0 ∧
      ∀ s : State, s = State.resetWith smallParams → InvWith smallParams s ∧
        after (fun t => t.initDone)
          (stepWith smallParams { s with hostQueue := [0x01], sched := [.host] }) = some true := by
  refine ⟨by decide, ?_⟩
  rintro s rfl
  exact ⟨⟨resetWith_storageWf _, by decide, by decide, blank_rows, ⟨State.reset.frame, by decide⟩,
    by decide, by decide, by decide, by decide, by decide, by decide, by decide, by decide,
    by decide, by decide, by decide⟩, by decide⟩

/-- For the clauses, under CAP = 10: `1=` is 10 columns and just fits, `111` is 11 and does not; a
capacity below 5; the roll-over and another tick; an hour event whose number 1 fits; a snapshot; a
column write that the drawn outcome would fail. -/
theorem witness_ParametersDecideTheBlock :
    ∀ s : State, s = { hourPending 25 with imgBuf := List.replicate 10 0 } →
      s.faultCode = .none ∧ s.storageWfFor smallParams ∧ s.loopRun = false ∧
        (textContent fx [0x31, 0x3D]).length = 10 ∧
        (textContent fx [0x31, 0x31, 0x31]).length = 11 ∧
        (fxParams 4).cap < 5 ∧ s.cdEn = true ∧
        { s with cdSub := 28799 }.cdSub = smallParams.ticksPerHour - 1 ∧
        s.cdSub ≠ smallParams.ticksPerHour - 1 ∧ s.cdPend = true ∧ s.cdState = .running ∧
        smallParams.hoursPerUnit ≠ 0 ∧
        (textContent fx (decimalText ((s.cdHours - 1).toNat / 24))).length ≤ 10 ∧
        { s with drvPhase := .snap }.drvPhase = .snap ∧ smallParams.gpioMayFail = false ∧
        after (fun t => (t.faultCode, t.pinScript)) (stepAsWith smallParams .driver
          { s with drvPhase := .colOn, pinScript := [true] }) = some (.none, [true]) := by
  rintro s rfl
  refine ⟨rfl, ⟨rfl, by decide⟩, rfl, by decide, by decide, by decide, rfl, by decide, by decide,
    rfl, rfl, by decide, ?_, rfl, rfl, by decide⟩
  show (textContent fx (decimalText 1)).length ≤ 10
  rw [decimalText_one]
  decide

/-- Each command with its precondition met and not met. -/
theorem witness_PreconditionFailureIsProtocolViolation :
    State.reset.faultCode = .none ∧ hostPrecondition .init State.reset ∧
      ¬ hostPrecondition .init afterInit ∧ hostPrecondition (.displayText []) State.reset ∧
      ¬ hostPrecondition (.displayText []) (inPhase .snap []) ∧
      hostPrecondition (.displayNumber 0) afterInit ∧
      ¬ hostPrecondition (.displayNumber 0) (inPhase .snap []) ∧
      hostPrecondition (.startCountdown 1) afterInit ∧
      ¬ hostPrecondition (.startCountdown 1) State.reset ∧
      hostPrecondition .runDisplayLoop afterInit ∧
      ¬ hostPrecondition .runDisplayLoop State.reset := by
  simp [hostPrecondition, afterInit, inPhase, State.reset, State.resetWith]

theorem witness_ReservedOpcodeIsIllegalCommand :
    ∀ s : State, s = { State.reset with hostQueue := [0x06, 0x01] } →
      s.faultCode = .none ∧ s.hostQueue = 0x06 :: [0x01] ∧ 6 ≤ (0x06 : Byte).toNat := by
  rintro s rfl
  decide

theorem witness_InitResult :
    State.reset.faultCode = .none ∧ State.reset.loopRun = false ∧ State.reset.initDone = false ∧
      afterInit.faultCode = .none ∧ afterInit.initDone = true := by decide

/-- 13 and 14 characters of one column: 31 columns fit, 33 do not (V3.6, V3.7). -/
theorem witness_DisplayTextResult :
    State.reset.faultCode = .none ∧ State.reset.storageWf ∧ State.reset.loopRun = false ∧
      (textContent Config.fontRom (List.replicate 13 0x31)).length ≤ Config.cap ∧
      Config.cap < (textContent Config.fontRom (List.replicate 14 0x31)).length ∧
      (inPhase .snap []).storageWf ∧ (inPhase .snap []).loopRun = true :=
  ⟨rfl, reset_storageWf, rfl, by decide, by decide, reset_storageWf, rfl⟩

/-- 2222221 gives 31 columns, which fit; 2222222 gives 33, which do not. -/
theorem witness_DisplayNumberResult :
    State.reset.faultCode = .none ∧ State.reset.storageWf ∧ State.reset.loopRun = false ∧
      (textContent Config.fontRom (decimalText (2222221 : Word).toNat)).length ≤ Config.cap ∧
      Config.cap < (textContent Config.fontRom (decimalText (2222222 : Word).toNat)).length ∧
      (inPhase .snap []).storageWf ∧ (inPhase .snap []).loopRun = true := by
  refine ⟨rfl, reset_storageWf, rfl, ?_, ?_, reset_storageWf, rfl⟩
  · rw [show (2222221 : Word).toNat = 2222221 from rfl, decimalText_twos_and_one]
    decide
  · rw [show (2222222 : Word).toNat = 2222222 from rfl, decimalText_seven_twos]
    decide

theorem witness_NumberIsTextOfItsDigits : State.reset.loopRun = false := rfl

theorem witness_EncodeResetsTheCursor :
    State.reset.storageWf ∧
      after (fun t => (t.faultCode, t.imgLen)) (exec (.displayText []) State.reset) =
        some (.none, 5) ∧
      after (fun t => t.faultCode) (exec (.displayNumber 1) State.reset) = some .none ∧
      withOne.storageWf ∧ 5 ≤ withOne.imgLen ∧
      after (fun t => t.imgLen) (exec .scrollExpire withOne) = some 7 :=
  ⟨reset_storageWf, by decide, by decide, ⟨by decide, by decide⟩, by decide, by decide⟩

theorem witness_StartCountdownResult :
    afterInit.faultCode = .none ∧ afterInit.loopRun = false ∧ afterInit.initDone = true ∧
      afterInit.cdState = .idle ∧ (1 : Word) ≠ 0 ∧ (inPhase .snap []).loopRun = true ∧
      State.reset.initDone = false ∧ (hourPending 1).cdState ≠ .idle := by decide

theorem witness_RunDisplayLoopResult :
    afterInit.faultCode = .none ∧ afterInit.loopRun = false ∧ afterInit.initDone = true ∧
      (inPhase .snap []).loopRun = true ∧ State.reset.initDone = false := by decide

theorem witness_FontRomIsAdmissible :
    romRead Config.fontRom .w1 0x31 = some [0b11111] := by decide

theorem witness_FontLookupFindsTheMatchingClass :
    romRead fx .w2 0x3D = some [0b01010, 0b01010] ∧ (∀ c, c = 0x41 → romRead fx .w1 c = none ∧
      romRead fx .w2 c = none ∧ romRead fx .w3 c = none) ∧ State.reset.faultCode = .none :=
  ⟨by decide, by rintro c rfl; decide, rfl⟩

/-- '1' at 30 columns just fits, at 31 and at 32 it does not; its columns are 0b11111 and a blank. -/
theorem witness_AppendGlyphResult :
    { State.reset with imgLen := 30 }.storageWf ∧ { State.reset with imgLen := 31 }.storageWf ∧
      State.reset.faultCode = .none ∧
      (match fontLookup Config.fontRom 0x31 with
        | some g => g ++ [0b00000]
        | none => [0b00000]) = [0b11111, 0b00000] ∧
      30 + 2 ≤ Config.cap ∧ Config.cap < 31 + 2 :=
  ⟨⟨reset_storageWf.1, by decide⟩, ⟨reset_storageWf.1, by decide⟩, rfl, by decide, by decide,
    by decide⟩

theorem witness_PushResult :
    { State.reset with imgLen := 32 }.imgLen = Config.params.cap ∧
      { State.reset with imgLen := 31 }.imgLen ≠ Config.params.cap ∧
      { State.reset with imgLen := 31 }.imgLen < State.reset.imgBuf.length := by decide

theorem witness_ScrollExpireResult :
    afterInit.faultCode = .none ∧ afterInit.scrEn = true ∧
      { afterInit with scrPend := true }.scrPend = true ∧ State.reset.scrEn = false := by decide

/-- An unset cursor, one at the end and one before it, each with its column. -/
theorem witness_ScrollIrqResult :
    afterInit.scrPend = false ∧ { afterInit with scrPend := true }.imgLen = 0 ∧
      withOne.imgLen ≠ 0 ∧ withOne.curValid = false ∧ withOne.imgBuf[0]? = some 0b11111 ∧
      { withOne with curValid := true, curIdx := 6 }.imgLen - 1 ≤ 6 ∧
      ¬ { withOne with curValid := true, curIdx := 5 }.imgLen - 1 ≤ 5 ∧
      withOne.imgBuf[5 + 1]? = some 0b00000 ∧ withOne.faultCode = .none := by decide

theorem witness_CursorIsCyclic :
    ∀ s : State, s = { withOne with curValid := true, curIdx := 0 } →
      s.faultCode = .none ∧ s.scrEn = true ∧ s.curValid = true ∧ s.curIdx < s.imgLen ∧
        6 < s.imgLen ∧ s.curIdx = 0 := by
  rintro s rfl
  decide

theorem witness_ScrolledFrame :
    withOne.faultCode = .none ∧ withOne.scrEn = true ∧ withOne.storageWf ∧
      withOne.curValid = false ∧ withOne.imgLen ≠ 0 :=
  ⟨rfl, rfl, ⟨by decide, by decide⟩, rfl, by decide⟩

theorem witness_CountSubtickResult :
    (hourPending 1).faultCode = .none ∧ afterInit.cdEn = false ∧ (hourPending 1).cdEn = true ∧
      { hourPending 1 with cdSub := 28799 }.cdSub = 28799 ∧
      { hourPending 1 with cdSub := 28798 }.cdSub ≠ 28799 := by decide

/-- Not pending; pending outside RUNNING; the last hour; an hour that fits; an hour whose number,
22222222, does not fit. -/
theorem witness_CountIrqResult :
    (hourPending 1).storageWf ∧ (hourPending 1).faultCode = .none ∧ afterInit.cdPend = false ∧
      { afterInit with cdPend := true }.cdState ≠ .running ∧ (hourPending 1).cdState = .running ∧
      (hourPending 1).cdPend = true ∧
      (textContent Config.fontRom (decimalText (((25 : Word) - 1).toNat / 24))).length ≤
        Config.cap ∧
      Config.cap <
        (textContent Config.fontRom (decimalText (((533333329 : Word) - 1).toNat / 24))).length :=
  by
  refine ⟨reset_storageWf, rfl, rfl, by decide, rfl, rfl, ?_, ?_⟩
  · rw [show ((25 : Word) - 1).toNat / 24 = 1 from rfl, decimalText_one]
    decide
  · rw [show ((533333329 : Word) - 1).toNat / 24 = 22222222 from rfl, decimalText_eight_twos]
    decide

theorem witness_OneHourIs28800Subticks :
    ∀ s : State, s = { hourPending 25 with cdPend := false } →
      s.faultCode = .none ∧ s.storageWf ∧ s.cdState = .running ∧ s.cdHours ≠ 0 ∧
        s.cdEn = true ∧ s.cdSub = 0 ∧ s.cdPend = false ∧
        (textContent Config.fontRom (decimalText ((s.cdHours.toNat - 1) / 24))).length ≤
          Config.cap := by
  rintro s rfl
  refine ⟨rfl, reset_storageWf, rfl, by decide, rfl, rfl, rfl, ?_⟩
  show (textContent Config.fontRom (decimalText 1)).length ≤ Config.cap
  rw [decimalText_one]
  decide

theorem witness_StoppedIsForEver :
    ∀ s : State, s = { afterInit with cdState := .stopped } →
      s.cdState = .stopped ∧ s.cdEn = false ∧ s.cdPend = false ∧
        after (fun t => t.scrPend) (stepAs .scrollTimer s) = some true := by
  rintro s rfl
  decide

theorem witness_TransformFollowsTheMap :
    pmFx.cell 0 4 = (2, 0) ∧ ∀ r k, pmFx.cell r k ≠ (7, 1) := by decide

theorem witness_SnapshotResult :
    (inPhase .snap []).faultCode = .none ∧ (inPhase .snap []).drvPhase = .snap ∧
      (inPhase .colOn []).drvPhase ≠ .snap := by decide

theorem witness_ColOnResult :
    (inPhase .colOn [false]).drvPhase = .colOn ∧ drawnFail (inPhase .colOn [false]) = false ∧
      drawnFail (inPhase .colOn [true]) = true ∧ (inPhase .snap []).drvPhase ≠ .colOn ∧
      (inPhase .colOn []).faultCode = .none := by decide

theorem witness_RowResult :
    (inPhase .row [false]).drvPhase = .row ∧ drawnFail (inPhase .row [false]) = false ∧
      drawnFail (inPhase .row [true]) = true ∧
      { inPhase .row [false] with drvR := 7 }.drvR.val < 8 ∧
      { inPhase .row [false] with drvR := 8 }.drvR.val = 8 ∧
      (inPhase .dwell []).drvPhase ≠ .row ∧ (inPhase .row []).faultCode = .none := by decide

theorem witness_DwellResult :
    (inPhase .dwell []).drvPhase = .dwell ∧ (inPhase .row []).drvPhase ≠ .dwell ∧
      (inPhase .dwell []).faultCode = .none := by decide

theorem witness_RowOffResult :
    (inPhase .rowOff [false]).drvPhase = .rowOff ∧ drawnFail (inPhase .rowOff [false]) = false ∧
      drawnFail (inPhase .rowOff [true]) = true ∧
      { inPhase .rowOff [false] with drvR := 7 }.drvR.val < 8 ∧
      { inPhase .rowOff [false] with drvR := 8 }.drvR.val = 8 ∧
      (inPhase .row []).drvPhase ≠ .rowOff ∧ (inPhase .rowOff []).faultCode = .none := by decide

theorem witness_ColOffResult :
    (inPhase .colOff [false]).drvPhase = .colOff ∧ drawnFail (inPhase .colOff [false]) = false ∧
      drawnFail (inPhase .colOff [true]) = true ∧
      { inPhase .colOff [false] with drvC := 1 }.drvC.val < 2 ∧
      { inPhase .colOff [false] with drvC := 2 }.drvC.val = 2 ∧
      (inPhase .snap []).drvPhase ≠ .colOff ∧ (inPhase .colOff []).faultCode = .none := by decide

/-- Also the hypotheses of DwellLightsTheSnapshot. -/
theorem witness_RefreshCycleIs64Steps :
    ∀ s : State, s = inPhase .snap (List.replicate 60 false ++ [true]) →
      s.faultCode = .none ∧ s.drvPhase = .snap ∧ (∀ i : Fin 9, s.rowOut[i] = .high) ∧
        (∀ j : Fin 3, s.colOut[j] = .low) ∧
        s.pinScript = List.replicate 60 false ++ [true] := by
  rintro s rfl
  exact ⟨rfl, rfl, by decide, by decide, rfl⟩

theorem witness_DwellLightsTheSnapshot :
    ∀ s : State, s = inPhase .snap (List.replicate 60 false ++ []) →
      s.faultCode = .none ∧ s.drvPhase = .snap ∧ (∀ i : Fin 9, s.rowOut[i] = .high) ∧
        (∀ j : Fin 3, s.colOut[j] = .low) ∧ s.pinScript = List.replicate 60 false ++ [] := by
  rintro s rfl
  exact ⟨rfl, rfl, by decide, by decide, rfl⟩

/-- A state of the invariants at a DWELL step with column 0 driven. -/
theorem witness_OneColumnIsDriven :
    ∀ s : State, s = { inPhase .dwell [] with colOut := #v[.high, .low, .low] } →
      Machine.Inv s ∧ s.colOut[(0 : Fin 3)] = .high ∧ s.drvPhase = .dwell := by
  rintro s rfl
  exact ⟨⟨reset_storageWf, by decide, by decide, blank_shows, blank_snapshot, by decide, by decide, by decide,
    by decide, by decide, by decide, by decide, by decide, by decide, by decide, by decide⟩, rfl,
    rfl⟩

/-- Two states with different frames and buffers that agree on what the driver reads. -/
theorem witness_DriverReadsNoSharedState :
    ∀ ph ∈ [DrvPhase.colOn, .row, .dwell, .rowOff, .colOff],
      ∀ s t : State, s = inPhase ph [false] → t = { s with frame := #v[1, 2, 3, 4, 5], imgLen := 3 } →
      s.faultCode = t.faultCode ∧ s.faultInfo = t.faultInfo ∧ s.drvPhase = t.drvPhase ∧
        s.drvC = t.drvC ∧ s.drvR = t.drvR ∧ s.drvPhys = t.drvPhys ∧ s.rowOut = t.rowOut ∧
        s.colOut = t.colOut ∧ s.pinScript = t.pinScript ∧ s.pinDraws = t.pinDraws ∧
        s.frame ≠ t.frame ∧ enabled .driver s = true ∧
        after (fun u => u.drvPhase) (stepAs .driver s) ≠ none := by
  intro ph hph s t hs ht
  subst hs ht
  refine ⟨rfl, rfl, rfl, rfl, rfl, rfl, rfl, rfl, rfl, rfl, by decide +revert, ?_, ?_⟩
  · revert ph
    decide
  · revert ph
    decide

/-- The frame statements' hypothesis, and the writes they name: each happens. -/
theorem witness_SharedStateWriters :
    after (fun t => decide (t.frame ≠ withOne.frame ∧ t.curValid ≠ withOne.curValid))
        (exec .scrollIrq { withOne with scrPend := true }) = some true ∧
      after (fun t => decide (t.imgLen ≠ 0)) (exec (.displayText []) State.reset) = some true ∧
      after (fun t => decide (t.curIdx ≠ 0))
        (exec .scrollIrq { withOne with scrPend := true, curValid := true }) = some true := by
  decide

theorem witness_OutputWriters :
    after (fun t => decide (t.rowOut ≠ State.reset.rowOut)) (exec .drvRow
        { inPhase .row [false] with drvR := 3, drvPhys := physOfV53 }) = some true ∧
      after (fun t => decide (t.colOut ≠ State.reset.colOut))
        (exec .drvColOn (inPhase .colOn [false])) = some true := by decide

theorem witness_ControlRegisterWriters :
    after (fun t => t.initDone) (exec .init State.reset) = some true ∧
      after (fun t => t.loopRun) (exec .runDisplayLoop afterInit) = some true ∧
      after (fun t => t.scrPend) (exec .scrollExpire afterInit) = some true ∧
      after (fun t => t.cdEn) (exec (.startCountdown 1) afterInit) = some true ∧
      after (fun t => t.cdPend) (exec .countIrq (hourPending 25)) = some false ∧
      after (fun t => t.cdPend) (exec (.startCountdown 1) { afterInit with cdPend := true }) =
        some false ∧
      after (fun t => t.cdPend)
        (exec .countSubtick { afterInit with cdEn := true, cdSub := 28799 }) = some true ∧
      after faultRegs (exec .runDisplayLoop State.reset) = some (.protocolViolation, 5) := by decide

theorem witness_MainContextWriters :
    after (fun t => t.drvPhase) (exec .runDisplayLoop afterInit) = some .snap ∧
      after (fun t => t.drvC) (exec .drvColOff (inPhase .colOff [false])) = some 1 ∧
      after (fun t => t.drvR) (exec .drvRow (inPhase .row [false])) = some 1 ∧
      after (fun t => t.pinScript) (exec .drvColOn (inPhase .colOn [true])) = some [] := by decide

/-- One step for each fault code that an operation raises. -/
theorem witness_FaultsAreRaisedAsListed :
    after faultRegs (exec (.displayText (List.replicate 14 0x31)) State.reset) =
        some (.capacityExceeded, 33) ∧
      after faultRegs (exec .drvColOff { inPhase .colOff [true] with drvC := 2 }) =
        some (.gpioWriteFailure, 0x12) ∧
      after faultRegs (exec .drvRow { inPhase .row [true] with drvR := 8 }) =
        some (.gpioWriteFailure, 8) ∧
      after faultRegs (exec (.startCountdown 1) State.reset) = some (.protocolViolation, 4) := by
  decide

/-- Both flags pending under the invariants, and steps of other agents. -/
theorem witness_PendingIsNeverLost :
    ∀ s : State, s = { hourPending 25 with scrPend := true } →
      Machine.Inv s ∧ s.scrPend = true ∧ s.cdPend = true ∧
        after (fun t => (t.scrPend, t.cdPend)) (stepAs .scrollTimer s) = some (true, true) ∧
        after (fun t => (t.scrPend, t.cdPend)) (stepAs .countHandler s) = some (true, false) := by
  rintro s rfl
  exact ⟨⟨reset_storageWf, by decide, by decide, blank_rows, blank_snapshot, by decide, by decide, by decide,
    by decide, by decide, by decide, by decide, by decide, by decide, by decide, by decide⟩, rfl,
    rfl, by decide, by decide⟩

/-- V6.11: the two orders from both flags pending. -/
theorem witness_EitherHandlerMayRunFirst :
    ∀ s : State, s = { hourPending 25 with scrPend := true } →
      s.faultCode = .none ∧ s.scrPend = true ∧ s.cdPend = true ∧
        after (fun t => t.faultCode) (stepAs .countHandler s) = some .none := by
  rintro s rfl
  decide

/-- A weakly fair execution: the scroll timer and its handler take turns. -/
def alternating : Execution where
  state n := if n % 2 = 0 then afterInit else { afterInit with scrPend := true }
  agent n := if n % 2 = 0 then .scrollTimer else .scrollHandler
  isStep n := by
    rcases Nat.mod_two_eq_zero_or_one n with h | h
    · have h1 : (n + 1) % 2 = 1 := by omega
      simp only [h, h1]
      exact ⟨rfl, rfl⟩
    · have h1 : (n + 1) % 2 = 0 := by omega
      simp only [h, h1]
      exact ⟨rfl, rfl⟩

theorem witness_FairScrollTimerKeepsTicking :
    alternating.WeaklyFair ∧ (alternating.state 0).scrEn = true := by
  refine ⟨fun c n => ?_, rfl⟩
  have he : ∀ m, c ≠ .scrollTimer → c ≠ .scrollHandler →
      enabled c (alternating.state m) = false := by
    intro m h1 h2
    rcases Nat.mod_two_eq_zero_or_one m with h | h <;> simp only [alternating, h] <;>
      cases c <;> first | rfl | exact absurd rfl h1 | exact absurd rfl h2
  by_cases h1 : c = .scrollTimer
  · refine ⟨2 * n, by omega, .inr ?_⟩
    simp [alternating, h1]
  · by_cases h2 : c = .scrollHandler
    · refine ⟨2 * n + 1, by omega, .inr ?_⟩
      simp [alternating, h2, Nat.add_mod]
    · exact ⟨n, le_refl n, .inl (he n h1 h2)⟩

end Sys2Proof.Tests
end

/-! ## The block at its default parameters -/

namespace Sys2Proof.Machine

theorem steps_iff_stepsWith (s t : State) : Steps s t ↔ StepsWith Config.params s t := by
  rw [Steps, StepsWith, stepAs_eq_stepAsWith]

theorem params_admissible : Config.params.Admissible where
  blankFrame := by decide
  anHour := by decide
  aUnit := by decide

/-- Settles O58: each part of the machine is, as a function, the block's at `Config.params`. -/
theorem machineIsTheBlockAtItsDefaults : Obligations.MachineIsTheBlockAtItsDefaults :=
  ⟨fun i s => by rw [exec_eq_execWith], fun s => by rw [step_eq_stepWith],
    fun c s => by rw [stepAs_eq_stepAsWith], steps_iff_stepsWith,
    fun cs s => by rw [runAs_eq_runAsWith], rfl, rfl, rfl, rfl, rfl, params_admissible⟩

end Sys2Proof.Machine

/-! ## Decimal digits: DISPLAY_NUMBER pushes the text of its digits (41_image_encoder.md R116, R120) -/

namespace Sys2Proof.Machine

variable {p : Params}

theorem decimalText_of_lt_ten {n : Nat} (h : n < 10) : decimalText n = [digitCode n] := by
  unfold decimalText
  split
  · next h0 =>
    subst h0
    rfl
  · next h0 =>
    rw [Nat.digits_of_lt 10 n h0 h]
    rfl

theorem decimalText_of_ten_le {n : Nat} (h : 10 ≤ n) :
    decimalText n = decimalText (n / 10) ++ [digitCode (n % 10)] := by
  have hn : n ≠ 0 := by omega
  have hq : n / 10 ≠ 0 := by omega
  unfold decimalText
  rw [if_neg hn, if_neg hq, Nat.digits_def' (by decide) (by omega), List.reverse_cons,
    List.map_append]
  rfl

theorem textColumns_append (rom : FontRom) (a b : List Byte) :
    textColumns rom (a ++ b) = textColumns rom a ++ textColumns rom b :=
  List.flatMap_append

theorem appendText_append (a b : List Byte) (s : State) :
    appendText p (a ++ b) s = (appendText p a s).bind (appendText p b) := by
  have hb : appendText p b = pushAll p (textColumns p.font b) :=
    funext (appendText_eq_pushAll b)
  rw [hb, appendText_eq_pushAll, appendText_eq_pushAll, textColumns_append, pushAll_append]

theorem appendText_singleton (c : Byte) : appendText p [c] = appendGlyph p c := by
  funext s
  rw [appendText]
  cases appendGlyph p c s <;> rfl

/-- Where the recursion is deep enough, `EmitDigits` appends the decimal text of its argument. -/
theorem emitDigits_eq_appendText (depth n : Nat) (s : State) (h : n < 10 ^ (depth + 1)) :
    emitDigits p (depth + 1) n s = appendText p (decimalText n) s := by
  induction depth generalizing n with
  | zero =>
    have hlt : n < 10 := by simpa using h
    rw [emitDigits, if_neg (by omega), Nat.mod_eq_of_lt hlt, decimalText_of_lt_ten hlt,
      appendText_singleton]
    rfl
  | succ d ih =>
    rw [emitDigits]
    by_cases hlt : n < 10
    · rw [if_neg (by omega), Nat.mod_eq_of_lt hlt, decimalText_of_lt_ten hlt,
        appendText_singleton]
      rfl
    · have hq : (n - n % 10) / 10 = n / 10 := by omega
      have hd : n / 10 < 10 ^ (d + 1) := Nat.div_lt_of_lt_mul (by rwa [pow_succ'] at h)
      rw [if_pos (by omega), hq, ih _ hd, decimalText_of_ten_le (Nat.le_of_not_lt hlt),
        appendText_append, appendText_singleton]

/-- `NumberBody` is the body of DISPLAY_TEXT on the number's digits (41_image_encoder.md R120): 10
digits suffice for 32 bits. -/
theorem numberBody_eq_textBody (n : Word) (s : State) :
    numberBody p n s = textBody p (decimalText n.toNat) s := by
  have hn : n.toNat < 10 ^ (9 + 1) := n.isLt.trans (by decide)
  rw [numberBody, textBody, maxDigits, emitDigits_eq_appendText 9 _ _ hn]

theorem numberBody_eq_pushAll_textContent (n : Word) (s : State) :
    numberBody p n s = pushAll p (textContent p.font (decimalText n.toNat)) (beginContent s) := by
  rw [numberBody_eq_textBody, textBody_eq_pushAll]

end Sys2Proof.Machine

/-! ## What an encode leaves, by whether its content fits -/

namespace Sys2Proof.Machine

variable {p : Params}

@[simp] theorem content_withContent (s : State) (cols : List ColImage) :
    content (withContent s cols) = cols := by
  simp [content, withContent]

theorem five_le_textContent_length (rom : FontRom) (text : List Byte) :
    5 ≤ (textContent rom text).length := by
  rw [textContent_length]
  omega

section EncodingCommand

variable {op : Byte} {body : State → Flow} {cols : List ColImage}

/-- An accepted encoding command whose content fits leaves that content, and nothing else. -/
theorem encodeCommand_fits (hb : ∀ t, body t = pushAll p cols (beginContent t)) {s : State}
    (hl : s.loopRun = false) (hc : s.imgBuf.length = p.cap) (h : cols.length ≤ p.cap) :
    commandRule op (fun _ => true) body s = { withContent s cols with imask := false } := by
  rw [commandRule_accepted hl rfl, atomic, hb, pushAll_begin_fits cols (maskInterrupts s) hc h]
  rfl

/-- An accepted encoding command whose content does not fit leaves a full buffer and the fault. -/
theorem encodeCommand_overflows (hb : ∀ t, body t = pushAll p cols (beginContent t)) {s : State}
    (hl : s.loopRun = false) (hc : s.imgBuf.length = p.cap) (h : p.cap < cols.length) :
    ∃ buf : List ColImage, buf.length = p.cap ∧
      commandRule op (fun _ => true) body s =
        faulted { s with imgBuf := buf, imgLen := p.cap, curValid := false }
          .capacityExceeded (BitVec.ofNat 32 (p.cap + 1)) := by
  obtain ⟨buf, hlen, e⟩ := pushAll_begin_overflows cols (maskInterrupts s) hc h
  refine ⟨buf, hlen, ?_⟩
  rw [commandRule_accepted hl rfl, atomic, hb, e]
  rfl

end EncodingCommand

/-- DISPLAY_TEXT of a text, and DISPLAY_NUMBER of the number with that decimal text, are one kind of
encoding command. -/
theorem opRule_encode {i : Instr} {text : List Byte}
    (hi : i = .displayText text ∨ ∃ n : Word, i = .displayNumber n ∧ text = decimalText n.toNat) :
    (∀ s, opEnabled i s = true) ∧ ∃ (op : Byte) (body : State → Flow),
      opRule p i = commandRule op (fun _ => true) body ∧
        ∀ t, body t = pushAll p (textContent p.font text) (beginContent t) := by
  obtain rfl | ⟨n, rfl, rfl⟩ := hi
  · exact ⟨fun _ => rfl, _, _, rfl, textBody_eq_pushAll text⟩
  · exact ⟨fun _ => rfl, _, _, rfl, numberBody_eq_pushAll_textContent n⟩

/-- COUNT_IRQ in RUNNING, where the number of the hours left fits: the decrement, the new content, and
the flag cleared (44_tick_scheduler.md R194). -/
theorem opRule_countIrq_fits {s : State} {text : List Byte} (hr : s.cdState = .running)
    (ht : text = decimalText ((s.cdHours - 1).toNat / p.hoursPerUnit.toNat))
    (hc : s.imgBuf.length = p.cap) (h : (textContent p.font text).length ≤ p.cap) :
    opRule p .countIrq s = { withContent (decrementHours s) (textContent p.font text) with
      cdPend := false, imask := false } := by
  have hshow : showHours p (decrementHours (maskInterrupts s)) =
      .ok (withContent (decrementHours (maskInterrupts s)) (textContent p.font text)) := by
    rw [showHours, numberBody_eq_pushAll_textContent, BitVec.toNat_udiv, decrementHours_eq,
      maskInterrupts_cdHours, ← ht]
    exact pushAll_begin_fits _ _ hc h
  rw [opRule, atomic, countHandlerBody, if_pos (by simpa using hr), hshow, decrementHours_eq,
    decrementHours_eq]
  rfl

end Sys2Proof.Machine

/-! ## The driver in a block whose writes cannot fail -/

namespace Sys2Proof.Machine

variable {p : Params}

@[simp] theorem advanceRow_faultCode (d : DrvPhase) (s : State) :
    (advanceRow d s).faultCode = s.faultCode := by
  unfold advanceRow; split <;> rfl

@[simp] theorem advanceRow_pinScript (d : DrvPhase) (s : State) :
    (advanceRow d s).pinScript = s.pinScript := by
  unfold advanceRow; split <;> rfl

@[simp] theorem advanceRow_pinDraws (d : DrvPhase) (s : State) :
    (advanceRow d s).pinDraws = s.pinDraws := by
  unfold advanceRow; split <;> rfl

@[simp] theorem advanceColumn_faultCode (s : State) :
    (advanceColumn s).faultCode = s.faultCode := by
  unfold advanceColumn; split <;> rfl

@[simp] theorem advanceColumn_pinScript (s : State) :
    (advanceColumn s).pinScript = s.pinScript := by
  unfold advanceColumn; split <;> rfl

@[simp] theorem advanceColumn_pinDraws (s : State) :
    (advanceColumn s).pinDraws = s.pinDraws := by
  unfold advanceColumn; split <;> rfl

/-- Outside OFF the phase names a step, and that step is enabled (43_display_driver.md R162). -/
theorem phaseStep_enabled {s : State} (h : s.drvPhase ≠ .off) :
    ∃ i, phaseStep s.drvPhase = some i ∧ opEnabled i s = true := by
  cases hd : s.drvPhase with
  | off => exact absurd hd h
  | snap => exact ⟨_, rfl, decide_eq_true hd⟩
  | colOn => exact ⟨_, rfl, decide_eq_true hd⟩
  | row => exact ⟨_, rfl, decide_eq_true hd⟩
  | dwell => exact ⟨_, rfl, decide_eq_true hd⟩
  | rowOff => exact ⟨_, rfl, decide_eq_true hd⟩
  | colOff => exact ⟨_, rfl, decide_eq_true hd⟩

theorem stepAsWith_driver {s : State} {i : Instr} (hf : s.faultCode = .none)
    (hi : phaseStep s.drvPhase = some i) (he : opEnabled i s = true) :
    stepAsWith p .driver s = .next (opRule p i s) := by
  rw [stepAsWith, stepBy_running hf, agentStep, driverTurn, hi]
  exact execWith_enabled hf he

/-- Where writes cannot fail, the step of any driver phase raises nothing and draws nothing
(43_display_driver.md R161). -/
theorem opRule_driver_infallible (hg : p.gpioMayFail = false) {s : State} {i : Instr}
    (hi : phaseStep s.drvPhase = some i) :
    (opRule p i s).faultCode = s.faultCode ∧ (opRule p i s).pinScript = s.pinScript ∧
      (opRule p i s).pinDraws = s.pinDraws := by
  have hw : writeFails p s ≠ true := by simp [writeFails_infallible hg]
  cases hd : s.drvPhase <;> rw [hd] at hi <;> cases hi
  case snap => exact ⟨rfl, rfl, rfl⟩
  case colOn =>
    obtain ⟨-, e⟩ := (colOnBody_cases p s).resolve_right fun h => hw h.1
    simp [opRule, e, useDraw_infallible hg]
  case row =>
    obtain ⟨-, e⟩ := (rowBody_cases p s).resolve_right fun h => hw h.1
    simp [opRule, e, useDraw_infallible hg]
  case dwell => exact ⟨rfl, rfl, rfl⟩
  case rowOff =>
    obtain ⟨-, e⟩ := (rowOffBody_cases p s).resolve_right fun h => hw h.1
    simp [opRule, e, useDraw_infallible hg]
  case colOff =>
    obtain ⟨-, e⟩ := (colOffBody_cases p s).resolve_right fun h => hw h.1
    simp [opRule, e, useDraw_infallible hg]

/-- A bit of the snapshot is a lit logical cell that the map sends there (43_display_driver.md R164,
R170). -/
theorem opRule_drvSnapshot_drvPhys (s : State) (pr : Fin 9) (pc : Fin 3) :
    (opRule p .drvSnapshot s).drvPhys[pr][pc] = true ↔
      ∃ r k : Fin 5, p.posMap.cell r k = (pr, pc) ∧ (s.frame[k]).getLsbD (4 - r.val) = true := by
  have h : (opRule p .drvSnapshot s).drvPhys = transform p.posMap s.frame := rfl
  rw [h, transform_apply]
  exact anyMapped_eq_true

end Sys2Proof.Machine

/-! ## What each parameter decides (00_scope.md R8, R9) -/

namespace Sys2Proof.Machine

section Parameters

variable {p : Params} {s : State}

/-- CAP and FONT_ROM: content that fits is shown. -/
theorem execWith_encode_fits (hf : s.faultCode = .none) (hs : s.storageWfFor p)
    (hl : s.loopRun = false) {i : Instr} {text : List Byte}
    (hi : i = .displayText text ∨ ∃ n : Word, i = .displayNumber n ∧ text = decimalText n.toNat)
    (h : (textContent p.font text).length ≤ p.cap) :
    ∃ t, execWith p i s = .next t ∧ t.faultCode = .none ∧ content t = textContent p.font text := by
  obtain ⟨he, op, body, hrule, hb⟩ := opRule_encode (p := p) hi
  refine ⟨_, execWith_enabled hf (he s), ?_⟩
  rw [hrule, encodeCommand_fits hb hl hs.1 h]
  exact ⟨hf, content_withContent s _⟩

/-- CAP and FONT_ROM: content beyond the capacity ends with CAPACITY_EXCEEDED. -/
theorem execWith_encode_overflows (hf : s.faultCode = .none) (hs : s.storageWfFor p)
    (hl : s.loopRun = false) {i : Instr} {text : List Byte}
    (hi : i = .displayText text ∨ ∃ n : Word, i = .displayNumber n ∧ text = decimalText n.toNat)
    (h : p.cap < (textContent p.font text).length) :
    ∃ t, execWith p i s = .next t ∧ t.faultCode = .capacityExceeded ∧
      t.faultInfo = BitVec.ofNat 32 (p.cap + 1) := by
  obtain ⟨he, op, body, hrule, hb⟩ := opRule_encode (p := p) hi
  obtain ⟨buf, -, e⟩ := encodeCommand_overflows (op := op) hb hl hs.1 h
  refine ⟨_, execWith_enabled hf (he s), ?_⟩
  rw [hrule, e]
  exact ⟨rfl, rfl⟩

/-- TICKS_PER_HOUR: the roll-over. -/
theorem execWith_countSubtick (hf : s.faultCode = .none) (he : s.cdEn = true) :
    execWith p .countSubtick s =
      if s.cdSub = p.ticksPerHour - 1 then .next { s with cdSub := 0, cdPend := true }
      else .next { s with cdSub := s.cdSub + 1 } := by
  rw [execWith_enabled (i := .countSubtick) hf he]
  obtain ⟨h, e⟩ | ⟨h, e⟩ := countSubtick_cases p s
  · rw [if_pos h, e]
  · rw [if_neg h, e]

/-- HOURS_PER_UNIT: the number shown. -/
theorem execWith_countIrq_fits (hf : s.faultCode = .none) (hs : s.storageWfFor p)
    (hp : s.cdPend = true) (hr : s.cdState = .running) {text : List Byte}
    (ht : text = decimalText ((s.cdHours - 1).toNat / p.hoursPerUnit.toNat))
    (h : (textContent p.font text).length ≤ p.cap) :
    ∃ t, execWith p .countIrq s = .next t ∧ t.faultCode = .none ∧
      content t = textContent p.font text := by
  refine ⟨_, execWith_enabled hf hp, ?_⟩
  rw [opRule_countIrq_fits hr ht hs.1 h, decrementHours_eq]
  exact ⟨hf, content_withContent s _⟩

end Parameters

/-- Settles O60, parameter by parameter; with CAP below 5 the blank frame alone does not fit. -/
theorem parametersDecideTheBlock : Obligations.ParametersDecideTheBlock := by
  intro p s hf hs
  refine ⟨fun hl i text hi => ⟨execWith_encode_fits hf hs hl hi, fun h => ?_⟩,
    execWith_countSubtick hf, fun hp hr _ text ht => execWith_countIrq_fits hf hs hp hr ht,
    fun hd => ?_, fun hg hd => ?_⟩
  · have hfive := five_le_textContent_length p.font text
    exact execWith_encode_overflows hf hs hl hi (by omega)
  · exact ⟨_, execWith_enabled hf (decide_eq_true hd), opRule_drvSnapshot_drvPhys s⟩
  · obtain ⟨i, hi, he⟩ := phaseStep_enabled hd
    obtain ⟨hcode, hscript, hdraws⟩ := opRule_driver_infallible hg hi
    exact ⟨_, stepAsWith_driver hf hi he, hcode.trans hf, hscript, hdraws⟩

end Sys2Proof.Machine

/-! ## Updates that keep the invariants (10_state.md R44) -/

namespace Sys2Proof.Machine

section Updates

variable {p : Params} {s : State}

/-- A draw writes the model's two draw fields and nothing else. -/
theorem useDraw_eq (p : Params) (s : State) :
    ∃ script draws, useDraw p s = { s with pinScript := script, pinDraws := draws } := by
  unfold useDraw consumeDraw
  split
  · split <;> exact ⟨_, _, rfl⟩
  · exact ⟨_, _, rfl⟩

/-- The choice of an agent writes the model's two schedule fields and nothing else. -/
theorem consumeChoice_eq (s : State) :
    ∃ sched draws, consumeChoice s = { s with sched := sched, schedDraws := draws } := by
  unfold consumeChoice
  split <;> exact ⟨_, _, rfl⟩

theorem InvWith.afterDraw (h : InvWith p s) : InvWith p (useDraw p s) := by
  obtain ⟨script, draws, e⟩ := useDraw_eq p s
  rw [e]
  exact { h with }

theorem InvWith.afterChoice (h : InvWith p s) : InvWith p (consumeChoice s) := by
  obtain ⟨sched, draws, e⟩ := consumeChoice_eq s
  rw [e]
  exact { h with }

theorem InvWith.withHostQueue (h : InvWith p s) (bytes : List Byte) :
    InvWith p { s with hostQueue := bytes } := { h with }

/-- The one invariant a fault may break has FAULT_CODE = 0 as a premise (90_conflicts.md C10). -/
theorem InvWith.withFault (h : InvWith p s) {code : FaultCode} (hc : code ≠ .none) (info : Word) :
    InvWith p (raiseFault code info s) := { h with pending := fun hn => absurd hn hc }

theorem InvWith.rejected (h : InvWith p s) {code : FaultCode} (hc : code ≠ .none) (info : Word) :
    InvWith p (faulted s code info) :=
  { h with pending := fun hn => absurd hn hc, unmasked := rfl }

/-- While a countdown's timer is enabled the countdown is RUNNING (44_tick_scheduler.md R195). -/
theorem InvWith.running_of_cdEn (h : InvWith p s) (he : s.cdEn = true) : s.cdState = .running := by
  cases hs : s.cdState with
  | idle => exact absurd ((h.idle hs).symm.trans he) Bool.false_ne_true
  | running => rfl
  | stopped => exact absurd ((h.stopped hs).1.symm.trans he) Bool.false_ne_true

end Updates

end Sys2Proof.Machine

/-! ## The host commands and the handlers keep the invariants -/

namespace Sys2Proof.Machine

section Commands

variable {p : Params} {s t : State}

theorem init_keeps_inv (h : InvWith p s) : InvWith p (opRule p .init s) := by
  obtain ⟨-, -, e⟩ | ⟨-, e⟩ := init_cases p s <;> rw [e]
  · exact { h with
      started := fun _ => rfl, loop := fun _ => rfl, scrollTimer := rfl
      scrollPending := fun _ => rfl, unmasked := rfl }
  · exact h.rejected (by decide) _

/-- New content within CAP and an unset cursor. -/
theorem InvWith.encoded (h : InvWith p s) {buf : List ColImage} {len : Nat}
    (hb : buf.length = s.imgBuf.length) (hl : len ≤ p.cap) :
    InvWith p { s with imgBuf := buf, imgLen := len, curValid := false, imask := false } :=
  { h with
    storage := ⟨hb.trans h.storage.1, hl⟩
    cursor := fun hv => absurd hv Bool.false_ne_true
    unmasked := rfl }

theorem InvWith.encodeOutcome (h : InvWith p s) {op : Byte} (ho : EncodeOutcome p op s t) :
    InvWith p t := by
  obtain ⟨buf, len, hb, hl, rfl | rfl⟩ | rfl := ho
  · exact h.encoded hb hl
  · exact (h.encoded hb hl).withFault (by decide) _
  · exact h.rejected (by decide) _

theorem startCountdown_keeps_inv (h : InvWith p s) (hours : Word) :
    InvWith p (opRule p (.startCountdown hours) s) := by
  obtain ⟨-, hi, -, e⟩ | e := startCountdown_cases p hours s <;> rw [e]
  · have hsub : (0 : Word).toNat < p.ticksPerHour.toNat := Nat.zero_lt_of_lt h.subticks
    unfold beginCountdown
    split
    · exact { h with
        idle := fun _ => rfl, running := nofun, stopped := fun _ => ⟨rfl, rfl⟩
        pending := nofun, subticks := hsub, started := fun _ => hi, unmasked := rfl }
    · next hne =>
      exact { h with
        idle := nofun, running := fun _ => ⟨rfl, hne⟩, stopped := nofun
        pending := nofun, subticks := hsub, started := fun _ => hi, unmasked := rfl }
  · exact h.rejected (by decide) _

theorem runDisplayLoop_keeps_inv (h : InvWith p s) : InvWith p (opRule p .runDisplayLoop s) := by
  obtain ⟨hl, hi, e⟩ | ⟨-, e⟩ := runDisplayLoop_cases p s <;> rw [e]
  · have hoff := h.driverOff.2 hl
    have hcol := h.columnHigh
    have hrow := h.rows
    simp only [rowsInPhase, hoff] at hcol hrow
    exact { h with
      columnHigh := hcol, rows := hrow, loop := fun _ => hi
      driverOff := ⟨nofun, nofun⟩, unmasked := rfl }
  · exact h.rejected (by decide) _

theorem scrollExpire_keeps_inv (h : InvWith p s) (he : s.scrEn = true) :
    InvWith p (opRule p .scrollExpire s) := { h with scrollPending := fun _ => he }

theorem scrollIrq_keeps_inv (h : InvWith p s) : InvWith p (opRule p .scrollIrq s) := by
  obtain ⟨-, e⟩ | ⟨hl, e⟩ := scrollIrq_cases p s <;> rw [e]
  · exact { h with scrollPending := nofun, unmasked := rfl }
  · exact { h with
      cursor := fun _ => nextCursor_lt s hl, scrollPending := nofun, unmasked := rfl }

theorem countSubtick_keeps_inv (h : InvWith p s) (he : s.cdEn = true) :
    InvWith p (opRule p .countSubtick s) := by
  have hlt := h.subticks
  obtain ⟨-, e⟩ | ⟨hne, e⟩ := countSubtick_cases p s <;> rw [e]
  · exact { h with
      pending := fun _ _ => h.running_of_cdEn he, subticks := Nat.zero_lt_of_lt hlt }
  · have hsub : (s.cdSub + 1).toNat < p.ticksPerHour.toNat := by bv_omega
    exact { h with subticks := hsub }

/-- The hour decrement keeps the countdown's states, once the handler has cleared the flag
(44_tick_scheduler.md R194, R195). -/
theorem InvWith.decremented (h : InvWith p s) (hr : s.cdState = .running) :
    InvWith p { decrementHours s with cdPend := false } := by
  have hi : s.initDone = true := h.started (by simp [hr])
  unfold decrementHours
  split
  · next h0 =>
    exact { h with
      idle := nofun, running := nofun, stopped := fun _ => ⟨rfl, h0⟩, pending := nofun
      started := fun _ => hi }
  · next h0 =>
    exact { h with
      running := fun _ => ⟨(h.running hr).1, h0⟩
      stopped := fun hs => absurd (hr.symm.trans hs) nofun
      pending := nofun }

/-- Where the re-encode overflows the flag stays, but a fault is recorded (90_conflicts.md C10). -/
theorem countIrq_keeps_inv (h : InvWith p s) : InvWith p (opRule p .countIrq s) := by
  obtain ⟨-, e⟩ | ⟨hr, buf, len, hb, hl, e | e⟩ := countIrq_cases p s <;> rw [e]
  · exact { h with pending := nofun, unmasked := rfl }
  all_goals
    have hb' : buf.length = (decrementHours s).imgBuf.length := by
      rw [hb, decrementHours_eq]
    have hd := (h.decremented hr).encoded hb' hl
  · exact { hd with }
  · exact { hd with pending := nofun }

/-- Pushes never shorten the content, whether they fit or not. -/
theorem imgLen_le_settle_pushAll (vs : List ColImage) (s : State) :
    s.imgLen ≤ (settle (pushAll p vs s)).imgLen := by
  induction vs generalizing s with
  | nil => exact le_refl _
  | cons v vs ih =>
    by_cases hcap : s.imgLen = p.cap
    · simp only [pushAll, push, if_pos hcap]
      exact le_refl _
    · simp only [pushAll, push, if_neg hcap]
      exact (Nat.le_succ _).trans (ih (storeColumn v s))

theorem appendGlyph_keeps_inv (h : InvWith p s) (c : Byte) :
    InvWith p (opRule p (.appendGlyph c) s) := by
  have hgrow : s.imgLen ≤ (opRule p (.appendGlyph c) s).imgLen := by
    simp only [opRule, appendGlyph_eq_pushAll]
    exact imgLen_le_settle_pushAll _ s
  obtain ⟨buf, len, hb, hl, e | e⟩ := appendGlyph_cases p c s <;> rw [e] at hgrow ⊢
  all_goals
    have hstore := And.intro (hb.trans h.storage.1) (hl h.storage.2)
    have hcur := fun hv => (h.cursor hv).trans_le hgrow
  · exact { h with storage := hstore, cursor := hcur }
  · exact { h with storage := hstore, cursor := hcur, pending := nofun }

end Commands

end Sys2Proof.Machine

/-! ## The driver's steps keep the invariants (43_display_driver.md R166, R168, R171) -/

namespace Sys2Proof.Machine

/-- The level the snapshot asks of a row for the driven column (43_display_driver.md R166). -/
def snapLevel (s : State) (r : Fin 9) : Level := if physBit s r s.drvC then .low else .high

/-- The level a row holds in the driver's phase, as a function of the driver's registers. -/
def phaseLevel (s : State) (r : Fin 9) : Level :=
  match s.drvPhase with
  | .row => if r < s.drvR then snapLevel s r else .high
  | .dwell => snapLevel s r
  | .rowOff => if r < s.drvR then .high else snapLevel s r
  | .off | .snap | .colOn | .colOff => .high

/-- The row invariant is that each row holds the level of the phase. -/
theorem rowsInPhase_iff {s : State} {r : Fin 9} :
    rowsInPhase s r ↔ s.rowOut[r] = phaseLevel s r := by
  unfold rowsInPhase phaseLevel rowShows rowInactive snapLevel
  cases s.drvPhase with
  | row | rowOff => dsimp only; split <;> rfl
  | off | snap | colOn | dwell | colOff => rfl

/-- A row step leaves the snapshot's levels, and it goes on to the next row or, after row 8, to the next
phase. -/
theorem advanceRow_setOut_row {after : DrvPhase} {x : Level} {s t : State}
    (ht : t = advanceRow after (setOut (.row s.drvR) x s)) :
    snapLevel t = snapLevel s ∧
      (t.drvPhase = s.drvPhase ∧ t.drvR.val = s.drvR.val + 1 ∨
        t.drvPhase = after ∧ s.drvR.val = 8) := by
  obtain ⟨_, e⟩ | ⟨h8, e⟩ := advanceRow_cases after (setOut (.row s.drvR) x s)
  · rw [ht, e]
    exact ⟨rfl, .inl ⟨rfl, rfl⟩⟩
  · rw [ht, e]
    exact ⟨rfl, .inr ⟨rfl, h8⟩⟩

/-- The sweep that turns rows on: DRV_ROW's write is the one change of level the phase asks. -/
theorem phaseLevel_row_next {s t : State} (hp : s.drvPhase = .row)
    (ht : t = advanceRow .dwell (setOut (.row s.drvR) (rowLevel s) s)) (r : Fin 9) :
    phaseLevel t r = if r = s.drvR then rowLevel s else phaseLevel s r := by
  have hx : rowLevel s = snapLevel s s.drvR := rfl
  obtain ⟨hsnap, ⟨hq, hr⟩ | ⟨hq, hr⟩⟩ := advanceRow_setOut_row ht <;>
    simp only [phaseLevel, hp, hq, hsnap, hx]
  · grind [Fin.lt_def]
  · grind [Fin.lt_def]

/-- The sweep that turns rows off, for DRV_ROW_OFF. -/
theorem phaseLevel_rowOff_next {s t : State} (hp : s.drvPhase = .rowOff)
    (ht : t = advanceRow .colOff (setOut (.row s.drvR) .high s)) (r : Fin 9) :
    phaseLevel t r = if r = s.drvR then .high else phaseLevel s r := by
  obtain ⟨hsnap, ⟨hq, hr⟩ | ⟨hq, hr⟩⟩ := advanceRow_setOut_row ht <;>
    simp only [phaseLevel, hp, hq, hsnap]
  · grind [Fin.lt_def]
  · grind [Fin.lt_def]

section Driver

variable {p : Params} {s : State}

/-- Outside OFF the loop runs (43_display_driver.md R162, R163). -/
theorem InvWith.loopRun_of_phase (h : InvWith p s) {d : DrvPhase} (hp : s.drvPhase = d)
    (hd : d ≠ .off) : s.loopRun = true := by
  rw [← Bool.not_eq_false, ← h.driverOff, hp]
  exact hd

theorem off_iff_of_running {d : DrvPhase} {run : Bool} (hd : d ≠ .off) (hr : run = true) :
    d = .off ↔ run = false := by
  simp [hd, hr]

/-- Every column is LOW in a phase that drives none (43_display_driver.md R171). -/
theorem InvWith.colOut_ne_high (h : InvWith p s) (hd : s.drvPhase.columnDriven = false)
    (c : Fin 3) :
    s.colOut[c] ≠ .high :=
  (h.columnHigh c).not.2 (by simp [hd])

theorem InvWith.rowOut_eq (h : InvWith p s) (r : Fin 9) : s.rowOut[r] = phaseLevel s r :=
  rowsInPhase_iff.1 (h.rows r)

theorem drvSnapshot_keeps_inv (h : InvWith p s) (hp : s.drvPhase = .snap) :
    InvWith p (opRule p .drvSnapshot s) := by
  have hrow := h.rows
  have hlow := h.colOut_ne_high (by rw [hp]; rfl)
  have hrun := h.loopRun_of_phase hp (by decide)
  simp only [rowsInPhase, hp] at hrow
  exact { h with
    columnHigh := fun c => iff_of_false (hlow c) nofun
    rows := hrow, snapshot := ⟨s.frame, rfl⟩
    driverOff := off_iff_of_running nofun hrun, unmasked := rfl }

/-- DRV_COL_ON with a write that succeeds: the column of DRV_C is the one driven. -/
theorem InvWith.columnOn (h : InvWith p s) (hp : s.drvPhase = .colOn) :
    InvWith p { setOut (.col s.drvC) .high s with drvR := 0, drvPhase := .row } := by
  have hrow := h.rows
  have hlow := h.colOut_ne_high (by rw [hp]; rfl)
  have hrun := h.loopRun_of_phase hp (by decide)
  simp only [rowsInPhase, hp] at hrow
  refine { h with
    columnHigh := fun c => ?_, rows := hrow, driverOff := off_iff_of_running nofun hrun }
  by_cases hc : c = s.drvC
  · subst hc
    exact iff_of_true (set_col_eq ..) ⟨rfl, rfl⟩
  · have hset : (s.colOut.set s.drvC .high)[c] ≠ .high := by
      rw [set_col_ne _ _ _ _ hc]
      exact hlow c
    exact iff_of_false hset fun ⟨hc', _⟩ => hc hc'

/-- DRV_COL_OFF with a write that succeeds: no column is driven. -/
theorem InvWith.columnOff (h : InvWith p s) (hp : s.drvPhase = .colOff) :
    InvWith p (advanceColumn (setOut (.col s.drvC) .low s)) := by
  have hrow := h.rows
  have hrun := h.loopRun_of_phase hp (by decide)
  simp only [rowsInPhase, hp] at hrow
  have hlow : ∀ c : Fin 3, (s.colOut.set s.drvC .low)[c] ≠ .high := by
    intro c
    by_cases hc : c = s.drvC
    · subst hc
      rw [set_col_eq]
      decide
    · rw [set_col_ne _ _ _ _ hc]
      exact fun hh => hc ((h.columnHigh c).1 hh).1
  obtain ⟨_, e⟩ | ⟨_, e⟩ := advanceColumn_cases (setOut (.col s.drvC) .low s) <;> rw [e]
  all_goals
    exact { h with
      columnHigh := fun c => iff_of_false (hlow c) nofun
      rows := hrow, driverOff := off_iff_of_running nofun hrun }

/-- A row write that succeeds, of the level by which the phase's levels move on. -/
theorem InvWith.rowWritten (h : InvWith p s) {x : Level} {after : DrvPhase}
    (hd : s.drvPhase.columnDriven = true) (ha : after.columnDriven = true)
    (hlevel : ∀ r, phaseLevel (advanceRow after (setOut (.row s.drvR) x s)) r =
      if r = s.drvR then x else phaseLevel s r) :
    InvWith p (advanceRow after (setOut (.row s.drvR) x s)) := by
  have hrow : ∀ r : Fin 9, (s.rowOut.set s.drvR x)[r] =
      phaseLevel (advanceRow after (setOut (.row s.drvR) x s)) r := by
    intro r
    rw [hlevel]
    split
    · next hr => rw [hr, set_row_eq]
    · next hr => rw [set_row_ne _ _ _ _ hr, h.rowOut_eq]
  have hrun := h.loopRun_of_phase rfl (fun h0 => by rw [h0] at hd; cases hd)
  obtain ⟨_, e⟩ | ⟨_, e⟩ := advanceRow_cases after (setOut (.row s.drvR) x s) <;> rw [e] at hrow ⊢
  · exact { h with rows := fun r => rowsInPhase_iff.2 (hrow r) }
  · have hcol : ∀ c : Fin 3, s.colOut[c] = .high ↔ c = s.drvC ∧ after.columnDriven = true := by
      simpa [hd, ha] using h.columnHigh
    have hoff : after ≠ .off := fun h0 => by rw [h0] at ha; cases ha
    exact { h with
      columnHigh := hcol, rows := fun r => rowsInPhase_iff.2 (hrow r)
      driverOff := off_iff_of_running hoff hrun }

theorem drvColOn_keeps_inv (h : InvWith p s) (hp : s.drvPhase = .colOn) :
    InvWith p (opRule p .drvColOn s) := by
  simp only [opRule]
  obtain ⟨-, e⟩ | ⟨-, e⟩ := colOnBody_cases p s <;> rw [e]
  · simpa using h.afterDraw.columnOn (by simpa using hp)
  · exact h.afterDraw.withFault (by decide) _

theorem rowLevel_useDraw (p : Params) (s : State) : rowLevel (useDraw p s) = rowLevel s := by
  obtain ⟨script, draws, e⟩ := useDraw_eq p s
  rw [e]
  rfl

theorem drvRow_keeps_inv (h : InvWith p s) (hp : s.drvPhase = .row) :
    InvWith p (opRule p .drvRow s) := by
  have hd : (useDraw p s).drvPhase = .row := by simpa using hp
  simp only [opRule]
  obtain ⟨-, e⟩ | ⟨-, e⟩ := rowBody_cases p s <;> rw [e]
  · simpa [rowLevel_useDraw] using
      h.afterDraw.rowWritten (by rw [hd]; rfl) rfl (phaseLevel_row_next hd rfl)
  · exact h.afterDraw.withFault (by decide) _

theorem drvDwell_keeps_inv (h : InvWith p s) (hp : s.drvPhase = .dwell) :
    InvWith p (opRule p .drvDwell s) := by
  have hcol := h.columnHigh
  have hrow := h.rows
  have hrun := h.loopRun_of_phase hp (by decide)
  simp only [rowsInPhase, hp] at hcol hrow
  exact { h with columnHigh := hcol, rows := hrow, driverOff := off_iff_of_running nofun hrun }

theorem drvRowOff_keeps_inv (h : InvWith p s) (hp : s.drvPhase = .rowOff) :
    InvWith p (opRule p .drvRowOff s) := by
  have hd : (useDraw p s).drvPhase = .rowOff := by simpa using hp
  simp only [opRule]
  obtain ⟨-, e⟩ | ⟨-, e⟩ := rowOffBody_cases p s <;> rw [e]
  · simpa using h.afterDraw.rowWritten (by rw [hd]; rfl) rfl (phaseLevel_rowOff_next hd rfl)
  · exact h.afterDraw.withFault (by decide) _

theorem drvColOff_keeps_inv (h : InvWith p s) (hp : s.drvPhase = .colOff) :
    InvWith p (opRule p .drvColOff s) := by
  simp only [opRule]
  obtain ⟨-, e⟩ | ⟨-, e⟩ := colOffBody_cases p s <;> rw [e]
  · simpa using h.afterDraw.columnOff (by simpa using hp)
  · exact h.afterDraw.withFault (by decide) _

end Driver

end Sys2Proof.Machine

/-! ## The invariants of every block (10_state.md R44) -/

namespace Sys2Proof.Machine

section Block

variable {p : Params} {s t : State}

theorem execWith_keeps_inv {i : Instr} (h : InvWith p s) (he : execWith p i s = .next t) :
    InvWith p t := by
  obtain ⟨-, hen, rfl⟩ := execWith_eq_next.1 he
  cases i with
  | init => exact init_keeps_inv h
  | displayText text => exact h.encodeOutcome (displayText_cases p text s)
  | displayNumber n => exact h.encodeOutcome (displayNumber_cases p n s)
  | startCountdown hours => exact startCountdown_keeps_inv h hours
  | runDisplayLoop => exact runDisplayLoop_keeps_inv h
  | scrollExpire => exact scrollExpire_keeps_inv h hen
  | scrollIrq => exact scrollIrq_keeps_inv h
  | countSubtick => exact countSubtick_keeps_inv h hen
  | countIrq => exact countIrq_keeps_inv h
  | drvSnapshot => exact drvSnapshot_keeps_inv h (of_decide_eq_true hen)
  | drvColOn => exact drvColOn_keeps_inv h (of_decide_eq_true hen)
  | drvRow => exact drvRow_keeps_inv h (of_decide_eq_true hen)
  | drvDwell => exact drvDwell_keeps_inv h (of_decide_eq_true hen)
  | drvRowOff => exact drvRowOff_keeps_inv h (of_decide_eq_true hen)
  | drvColOff => exact drvColOff_keeps_inv h (of_decide_eq_true hen)
  | fontLookup c => exact h
  | appendGlyph c => exact appendGlyph_keeps_inv h c

theorem stepAsWith_keeps_inv {c : Choice} (h : InvWith p s) (hs : stepAsWith p c s = .next t) :
    InvWith p t := by
  obtain ⟨-, i, rest, -, he⟩ | ⟨-, op, rest, -, rfl⟩ | ⟨-, he⟩ | ⟨-, he⟩ | ⟨-, he⟩ | ⟨-, he⟩ |
    ⟨-, i, -, he⟩ := stepBy_next hs
  · exact execWith_keeps_inv (h.withHostQueue rest) he
  · exact (h.withHostQueue rest).rejected (by decide) _
  all_goals exact execWith_keeps_inv h he

theorem stepWith_keeps_inv (h : InvWith p s) (hs : stepWith p s = .next t) : InvWith p t := by
  obtain ⟨c, -, he⟩ := blockStep_next hs
  exact stepAsWith_keeps_inv h.afterChoice he

end Block

/-- The blank frame's image is dark, whatever the map. -/
theorem transform_blank (m : PosMap) (pr : Fin 9) (pc : Fin 3) :
    transformBit m #v[0, 0, 0, 0, 0] pr pc = false := by
  have hdark : ∀ r k : Fin 5, frameBit #v[0, 0, 0, 0, 0] r k = false := by decide
  rw [transformBit, ← Bool.not_eq_true, anyMapped_eq_true]
  rintro ⟨r, k, -, hlit⟩
  exact absurd ((hdark r k).symm.trans hlit) Bool.false_ne_true

theorem resetWith_drvPhys (p : Params) :
    (State.resetWith p).drvPhys = transform p.posMap #v[0, 0, 0, 0, 0] := by
  have hreset : ∀ (pr : Fin 9) (pc : Fin 3), State.reset.drvPhys[pr][pc] = false := by
    decide
  ext pr hpr pc hpc
  exact (hreset ⟨pr, hpr⟩ ⟨pc, hpc⟩).trans
    ((transform_apply ..).trans (transform_blank _ ⟨pr, hpr⟩ ⟨pc, hpc⟩)).symm

/-- At reset every row is HIGH and every column LOW (70_reset_and_hazards.md R251); no output of that
state depends on a parameter. -/
theorem resetWith_outputs (p : Params) :
    (∀ r : Fin 9, (State.resetWith p).rowOut[r] = .high) ∧
      ∀ c : Fin 3, (State.resetWith p).colOut[c] ≠ .high := by
  have hreset : (∀ r : Fin 9, State.reset.rowOut[r] = .high) ∧
      ∀ c : Fin 3, State.reset.colOut[c] ≠ .high := by decide
  exact hreset

theorem resetWith_inv {p : Params} (hp : p.ticksPerHour ≠ 0) : InvWith p (State.resetWith p) where
  storage := resetWith_storageWf p
  cursor := nofun
  columnHigh := fun c => iff_of_false ((resetWith_outputs p).2 c) nofun
  rows := (resetWith_outputs p).1
  snapshot := ⟨_, resetWith_drvPhys p⟩
  idle := fun _ => rfl
  running := nofun
  stopped := nofun
  pending := nofun
  subticks := Nat.pos_of_ne_zero fun h0 => hp (BitVec.eq_of_toNat_eq h0)
  started := fun h => absurd rfl h
  loop := nofun
  scrollTimer := rfl
  scrollPending := nofun
  driverOff := iff_of_true rfl rfl
  unmasked := rfl

/-- Settles O59: reset gives the invariants, and each operation of each agent keeps them. -/
theorem everyBlockKeepsTheInvariants : Obligations.EveryBlockKeepsTheInvariants :=
  fun _ hp => ⟨resetWith_inv hp, fun _ _ => stepWith_keeps_inv⟩

/-- Settles O16: the machine is the block at its default parameters. -/
theorem everyStepKeepsTheInvariants : Obligations.EveryStepKeepsTheInvariants :=
  fun _ _ h hs => stepWith_keeps_inv h (step_eq_stepWith ▸ hs)

/-- Settles O15: the reset state of the block at its default parameters, whose hour is not empty. -/
theorem resetKeepsToTheInvariants : Obligations.ResetKeepsToTheInvariants :=
  resetWith_inv params_admissible.anHour

end Sys2Proof.Machine

/-! ## The two unused physical cells (10_state.md R27) -/

namespace Sys2Proof.Machine

/-- Settles O39: 25 logical cells go to different ones of the 27 physical cells. -/
theorem twoPhysicalCellsAreUnused : Obligations.TwoPhysicalCellsAreUnused := by
  intro m
  have hinj : Function.Injective (Function.uncurry m.cell) :=
    fun _ _ e => Prod.ext_iff.2 (m.injective _ _ _ _ e)
  have hunused : (Finset.univ.filter fun q => ∀ r k, m.cell r k ≠ q) =
      (Finset.univ.image (Function.uncurry m.cell))ᶜ := by
    ext q
    simp
  rw [hunused, Finset.card_compl, Finset.card_image_of_injective _ hinj]
  rfl

end Sys2Proof.Machine

/-! ## Who writes what (10_state.md R24 to R42) -/

namespace Sys2Proof.Machine

/-- `s` with the fields that operation `i` may write, FAULT_CODE and FAULT_INFO aside, as they are in
`t`: the "written by" entries of 10_state.md, read by operation. A pending flag moves in the one
direction its writer allows, and an output only where DRV_R or DRV_C names it. -/
def written (i : Instr) (s t : State) : State :=
  match i with
  | .init => { s with initDone := t.initDone, scrEn := t.scrEn, imask := t.imask }
  | .displayText _ | .displayNumber _ =>
    { s with imgBuf := t.imgBuf, imgLen := t.imgLen, curValid := t.curValid, imask := t.imask }
  | .startCountdown _ =>
    { s with
      cdState := t.cdState, cdHours := t.cdHours, cdSub := t.cdSub, cdEn := t.cdEn
      cdPend := s.cdPend && t.cdPend, imask := t.imask }
  | .runDisplayLoop => { s with loopRun := t.loopRun, drvPhase := t.drvPhase, imask := t.imask }
  | .scrollExpire => { s with scrPend := true }
  | .scrollIrq =>
    { s with
      frame := t.frame, curValid := t.curValid, curIdx := t.curIdx, scrPend := false
      imask := t.imask }
  | .countSubtick => { s with cdSub := t.cdSub, cdPend := s.cdPend || t.cdPend }
  | .countIrq =>
    { s with
      imgBuf := t.imgBuf, imgLen := t.imgLen, curValid := t.curValid
      cdState := t.cdState, cdHours := t.cdHours, cdEn := t.cdEn
      cdPend := s.cdPend && t.cdPend, imask := t.imask }
  | .drvSnapshot =>
    { s with drvPhys := t.drvPhys, drvC := t.drvC, drvPhase := t.drvPhase, imask := t.imask }
  | .drvColOn =>
    { s with
      colOut := s.colOut.set s.drvC t.colOut[s.drvC], drvR := t.drvR, drvPhase := t.drvPhase
      pinScript := t.pinScript, pinDraws := t.pinDraws }
  | .drvRow | .drvRowOff =>
    { s with
      rowOut := s.rowOut.set s.drvR t.rowOut[s.drvR], drvR := t.drvR, drvPhase := t.drvPhase
      pinScript := t.pinScript, pinDraws := t.pinDraws }
  | .drvDwell => { s with drvR := t.drvR, drvPhase := t.drvPhase }
  | .drvColOff =>
    { s with
      colOut := s.colOut.set s.drvC t.colOut[s.drvC], drvC := t.drvC, drvPhase := t.drvPhase
      pinScript := t.pinScript, pinDraws := t.pinDraws }
  | .fontLookup _ => s
  | .appendGlyph _ => { s with imgBuf := t.imgBuf, imgLen := t.imgLen }

/-- Which operations can raise a fault (60_exceptions.md R220). -/
def mayRaise : Instr → Bool
  | .scrollExpire | .scrollIrq | .countSubtick | .drvSnapshot | .drvDwell | .fontLookup _ => false
  | _ => true

/-- `t` comes from `s` by operation `i`: but for the fields it may write nothing changes, and the fault
registers only where a fault is raised. -/
structure WritesOnly (i : Instr) (s t : State) : Prop where
  fields : t = { written i s t with faultCode := t.faultCode, faultInfo := t.faultInfo }
  fault : (t.faultCode = s.faultCode ∧ t.faultInfo = s.faultInfo) ∨
    (mayRaise i = true ∧ t.faultCode ≠ .none)

section Writers

variable {p : Params} {s t : State}

theorem advanceRow_eq (after : DrvPhase) (s : State) :
    ∃ r d, advanceRow after s = { s with drvR := r, drvPhase := d } := by
  unfold advanceRow
  split <;> exact ⟨_, _, rfl⟩

theorem advanceColumn_eq (s : State) :
    ∃ c d, advanceColumn s = { s with drvC := c, drvPhase := d } := by
  unfold advanceColumn
  split <;> exact ⟨_, _, rfl⟩

/-- The two encoding commands write the same fields. -/
theorem EncodeOutcome.writesOnly {i : Instr} {op : Byte} (ho : EncodeOutcome p op s t)
    (hi : written i = written (.displayText [])) (hr : mayRaise i = true) : WritesOnly i s t := by
  obtain ⟨buf, len, -, -, rfl | rfl⟩ | rfl := ho
  · exact ⟨by rw [hi]; rfl, .inl ⟨rfl, rfl⟩⟩
  all_goals exact ⟨by rw [hi]; rfl, .inr ⟨hr, nofun⟩⟩

/-- The two row steps write the same fields, whether the output write succeeds or fails. -/
theorem rowWrite_writesOnly {i : Instr} {after : DrvPhase} {x : Level} {info : Word}
    (hi : written i = written .drvRow) (hr : mayRaise i = true)
    (ht : writeFails p s = false ∧ t = advanceRow after (setOut (.row s.drvR) x (useDraw p s)) ∨
      writeFails p s = true ∧ t = raiseFault .gpioWriteFailure info (useDraw p s)) :
    WritesOnly i s t := by
  obtain ⟨script, draws, hd⟩ := useDraw_eq p s
  obtain ⟨r, d, ha⟩ := advanceRow_eq after (setOut (.row s.drvR) x (useDraw p s))
  obtain ⟨-, e⟩ | ⟨-, e⟩ := ht
  · rw [e, ha, hd]
    exact ⟨by rw [hi]; simp [written, setOut], .inl ⟨rfl, rfl⟩⟩
  · rw [e, hd]
    exact ⟨by rw [hi]; simp [written, raiseFault], .inr ⟨hr, nofun⟩⟩

/-- Every operation keeps to its fields, whichever of its cases it ends in. -/
theorem opRule_writesOnly (p : Params) (i : Instr) (s : State) : WritesOnly i s (opRule p i s) := by
  cases i with
  | init =>
    obtain ⟨-, -, e⟩ | ⟨-, e⟩ := init_cases p s <;> rw [e]
    · exact ⟨rfl, .inl ⟨rfl, rfl⟩⟩
    · exact ⟨rfl, .inr ⟨rfl, nofun⟩⟩
  | displayText text => exact (displayText_cases p text s).writesOnly rfl rfl
  | displayNumber n => exact (displayNumber_cases p n s).writesOnly rfl rfl
  | startCountdown h =>
    obtain ⟨-, -, -, e⟩ | e := startCountdown_cases p h s <;> rw [e]
    · unfold beginCountdown
      split <;> exact ⟨by simp [written], .inl ⟨rfl, rfl⟩⟩
    · exact ⟨by simp [written, faulted], .inr ⟨rfl, nofun⟩⟩
  | runDisplayLoop =>
    obtain ⟨-, -, e⟩ | ⟨-, e⟩ := runDisplayLoop_cases p s <;> rw [e]
    · exact ⟨rfl, .inl ⟨rfl, rfl⟩⟩
    · exact ⟨rfl, .inr ⟨rfl, nofun⟩⟩
  | scrollExpire => exact ⟨rfl, .inl ⟨rfl, rfl⟩⟩
  | scrollIrq =>
    obtain ⟨-, e⟩ | ⟨-, e⟩ := scrollIrq_cases p s <;> rw [e] <;> exact ⟨rfl, .inl ⟨rfl, rfl⟩⟩
  | countSubtick =>
    obtain ⟨-, e⟩ | ⟨-, e⟩ := countSubtick_cases p s <;> rw [e] <;>
      exact ⟨by simp [written], .inl ⟨rfl, rfl⟩⟩
  | countIrq =>
    obtain ⟨-, e⟩ | ⟨-, buf, len, -, -, e | e⟩ := countIrq_cases p s <;> rw [e]
    · exact ⟨by simp [written], .inl ⟨rfl, rfl⟩⟩
    all_goals rw [decrementHours_eq]
    · exact ⟨by simp [written], .inl ⟨rfl, rfl⟩⟩
    · exact ⟨by simp [written], .inr ⟨rfl, nofun⟩⟩
  | drvSnapshot => exact ⟨rfl, .inl ⟨rfl, rfl⟩⟩
  | drvColOn =>
    obtain ⟨script, draws, hd⟩ := useDraw_eq p s
    obtain ⟨-, e⟩ | ⟨-, e⟩ := colOnBody_cases p s <;> simp only [opRule] <;> rw [e, hd]
    · exact ⟨by simp [written, setOut], .inl ⟨rfl, rfl⟩⟩
    · exact ⟨by simp [written, raiseFault], .inr ⟨rfl, nofun⟩⟩
  | drvRow => exact rowWrite_writesOnly rfl rfl (rowBody_cases p s)
  | drvDwell => exact ⟨rfl, .inl ⟨rfl, rfl⟩⟩
  | drvRowOff => exact rowWrite_writesOnly rfl rfl (rowOffBody_cases p s)
  | drvColOff =>
    obtain ⟨script, draws, hd⟩ := useDraw_eq p s
    obtain ⟨c, d, ha⟩ := advanceColumn_eq (setOut (.col s.drvC) .low (useDraw p s))
    obtain ⟨-, e⟩ | ⟨-, e⟩ := colOffBody_cases p s <;> simp only [opRule]
    · rw [e, ha, hd]
      exact ⟨by simp [written, setOut], .inl ⟨rfl, rfl⟩⟩
    · rw [e, hd]
      exact ⟨by simp [written, raiseFault], .inr ⟨rfl, nofun⟩⟩
  | fontLookup c => exact ⟨rfl, .inl ⟨rfl, rfl⟩⟩
  | appendGlyph c =>
    obtain ⟨buf, len, -, -, e | e⟩ := appendGlyph_cases p c s <;> rw [e]
    · exact ⟨rfl, .inl ⟨rfl, rfl⟩⟩
    · exact ⟨rfl, .inr ⟨rfl, nofun⟩⟩

theorem exec_writesOnly {i : Instr} (h : exec i s = .next t) : WritesOnly i s t := by
  obtain ⟨-, -, rfl⟩ := exec_eq_next.1 h
  exact opRule_writesOnly _ i s

end Writers

/-- Settles O50: the rows of `written` that name a field of the shared state are those listed. -/
theorem sharedStateWriters : Obligations.SharedStateWriters := by
  intro i s t h
  rw [(exec_writesOnly h).fields]
  cases i <;> simp [written]

theorem written_rowOut_ne (i : Instr) (s t : State) {j : Fin 9} (hj : j ≠ s.drvR) :
    (written i s t).rowOut[j] = s.rowOut[j] := by
  cases i with
  | drvRow | drvRowOff => exact set_row_ne _ _ _ _ hj
  | _ => rfl

theorem written_colOut_ne (i : Instr) (s t : State) {j : Fin 3} (hj : j ≠ s.drvC) :
    (written i s t).colOut[j] = s.colOut[j] := by
  cases i with
  | drvColOn | drvColOff => exact set_col_ne _ _ _ _ hj
  | _ => rfl

/-- Settles O51: an output write sets the output that DRV_R or DRV_C names. -/
theorem outputWriters : Obligations.OutputWriters := by
  intro i s t h
  rw [(exec_writesOnly h).fields]
  refine ⟨?_, ?_, fun _ => written_rowOut_ne i s t, fun _ => written_colOut_ne i s t⟩
  all_goals cases i <;> simp [written]

/-- Settles O53: no handler's row of `written` names a register of the driver. -/
theorem mainContextWriters : Obligations.MainContextWriters := by
  intro i s t h
  rw [(exec_writesOnly h).fields]
  cases i <;> simp [written]

/-- Settles O52: each register by the rows of `written`, and the fault registers by `mayRaise`. -/
theorem controlRegisterWriters : Obligations.ControlRegisterWriters := by
  intro i s t h
  have hw := exec_writesOnly h
  refine ⟨?_, ?_, ?_, ?_, ?_, ?_, ?_, ?_, ?_, fun hc => ?_⟩
  case refine_10 =>
    obtain ⟨hr, hn⟩ := hw.fault.resolve_left fun ⟨hcode, hinfo⟩ => hc.elim (· hcode) (· hinfo)
    refine ⟨(exec_eq_next.1 h).1, hn, ?_, ?_, ?_, ?_, ?_, ?_⟩
    · rintro c rfl
      cases hr
    all_goals
      rintro rfl
      cases hr
  all_goals
    rw [hw.fields]
    cases i <;> simp +contextual [written]

end Sys2Proof.Machine

/-! ## The operand of an FW command (20_memory.md R62) -/

namespace Sys2Proof

/-- Byte `k` has the weight `256 ^ k` (20_memory.md R62). -/
theorem wordOfBytes_toNat (b1 b2 b3 b4 : Byte) :
    (wordOfBytes b1 b2 b3 b4).toNat =
      b1.toNat + 256 * b2.toNat + 65536 * b3.toNat + 16777216 * b4.toNat := by
  simp only [wordOfBytes, BitVec.toNat_append]
  rw [← Nat.shiftLeft_add_eq_or_of_lt b3.isLt, ← Nat.shiftLeft_add_eq_or_of_lt b2.isLt,
    ← Nat.shiftLeft_add_eq_or_of_lt b1.isLt]
  simp only [Nat.shiftLeft_eq]
  omega

/-- Settles O5: the operand of both FW commands is `wordOfBytes` of the four bytes. -/
theorem operandsAreLittleEndian : Obligations.OperandsAreLittleEndian :=
  fun b1 b2 b3 b4 _ => ⟨wordOfBytes b1 b2 b3 b4, wordOfBytes_toNat b1 b2 b3 b4, rfl, rfl⟩

end Sys2Proof

/-! ## What the host port decodes is a host command (30_encoding.md R86, R91) -/

namespace Sys2Proof

theorem decodeFW_command {mk : Word → Instr} {bs rest : List Byte} {i : Instr}
    (h : decodeFW mk bs = .command i rest) : ∃ w, i = mk w := by
  unfold decodeFW at h
  split at h <;> cases h
  exact ⟨_, rfl⟩

theorem decodeFT_command {bs rest : List Byte} {i : Instr} (h : decodeFT bs = .command i rest) :
    ∃ text, i = .displayText text := by
  unfold decodeFT at h
  split at h
  · cases h
  · split at h <;> cases h
    exact ⟨_, rfl⟩

theorem decodeHost_isHostCommand {bs rest : List Byte} {i : Instr}
    (h : decodeHost bs = .command i rest) : i.isHostCommand = true := by
  cases bs with
  | nil => cases h
  | cons op bytes =>
    simp only [decodeHost] at h
    split_ifs at h
    · cases h; rfl
    · obtain ⟨text, rfl⟩ := decodeFT_command h; rfl
    · obtain ⟨n, rfl⟩ := decodeFW_command h; rfl
    · obtain ⟨hours, rfl⟩ := decodeFW_command h; rfl
    · cases h; rfl

end Sys2Proof

/-! ## The agents with an enabled step, and the choice among them (20_memory.md R68, R69) -/

namespace Sys2Proof.Machine

section Agents

variable {s : State} {c : Choice}

theorem enabled_host :
    enabled .host s = true ↔ s.faultCode = .none ∧ decodeHost s.hostQueue ≠ .tooShort := by
  simp [enabled, hostReady]

theorem enabled_scrollTimer :
    enabled .scrollTimer s = true ↔ s.faultCode = .none ∧ s.scrEn = true := by
  simp [enabled]

theorem enabled_countTimer :
    enabled .countTimer s = true ↔ s.faultCode = .none ∧ s.cdEn = true := by
  simp [enabled]

theorem enabled_scrollHandler :
    enabled .scrollHandler s = true ↔ s.faultCode = .none ∧ s.scrPend = true := by
  simp [enabled]

theorem enabled_countHandler :
    enabled .countHandler s = true ↔ s.faultCode = .none ∧ s.cdPend = true := by
  simp [enabled]

theorem enabled_driver :
    enabled .driver s = true ↔ s.faultCode = .none ∧ s.drvPhase ≠ .off := by
  simp [enabled]

theorem enabled_running (h : enabled c s = true) : s.faultCode = .none := by
  unfold enabled at h
  exact of_decide_eq_true (Bool.and_elim_left h)

/-- The search for an agent looks at the drawn one first. -/
theorem choicesFrom_eq_cons (c : Choice) : choicesFrom c = c :: (choicesFrom c).tail := by
  cases c <;> rfl

theorem nextAgent_enabled (h : nextAgent s = some c) : enabled c s = true :=
  List.find?_some (p := (enabled · s)) h

theorem nextAgent_of_drawnChoice_enabled (h : enabled (drawnChoice s) s = true) :
    nextAgent s = some (drawnChoice s) := by
  rw [nextAgent, choicesFrom_eq_cons]
  exact List.find?_cons_of_pos h

/-- An agent with an enabled step goes next when the script names it (20_memory.md R68). -/
theorem nextAgent_of_enabled (h : enabled c s = true) :
    nextAgent { s with sched := c :: s.sched } = some c :=
  nextAgent_of_drawnChoice_enabled (s := { s with sched := c :: s.sched }) h

theorem step_eq_stepAs (hf : s.faultCode = .none) (hn : nextAgent s = some c) :
    step s = stepAs c (consumeChoice s) := by
  simp [step, blockStep, stepAs, hf, hn]

theorem step_eq_stepAs_of_enabled (h : enabled c s = true) :
    step { s with sched := c :: s.sched } = stepAs c s :=
  step_eq_stepAs (s := { s with sched := c :: s.sched }) (enabled_running h) (nextAgent_of_enabled h)

/-- A host command checks its precondition inside its step, which is always enabled
(30_encoding.md R88). -/
theorem opEnabled_of_isHostCommand {i : Instr} (h : i.isHostCommand = true) (s : State) :
    opEnabled i s = true := by
  cases i with
  | init | displayText | displayNumber | startCountdown | runDisplayLoop => rfl
  | _ => cases h

/-- The host port's step on a stream that starts with a whole command, which is executed, or with a
reserved opcode, which raises its fault (30_encoding.md R84, R87). -/
theorem hostStep_eq_next (hf : s.faultCode = .none) (hd : decodeHost s.hostQueue ≠ .tooShort) :
    ∃ t, hostStep exec s = .next t := by
  unfold hostStep
  split
  · next i rest e =>
    exact ⟨_, exec_enabled hf (opEnabled_of_isHostCommand (decodeHost_isHostCommand e) _)⟩
  · next op rest e => exact ⟨_, takeStep_enabled hf rfl⟩
  · next e => exact absurd e hd

end Agents

/-- Settles O10: the agent drawn first goes next when it is enabled, and choosing an agent changes
nothing that enables one. -/
theorem anyEnabledAgentMayGoNext : Obligations.AnyEnabledAgentMayGoNext := by
  refine ⟨fun _ _ => nextAgent_enabled, fun _ => ⟨enabled_host, enabled_scrollTimer,
    enabled_countTimer, enabled_scrollHandler, enabled_countHandler, enabled_driver⟩,
    fun s t => ⟨?_, ?_⟩⟩
  · rintro ⟨c, he, ht⟩
    exact ⟨c, (step_eq_stepAs_of_enabled he).trans ht⟩
  · rintro ⟨d, h⟩
    obtain ⟨c, hn, ht⟩ := step_next h
    exact ⟨c, nextAgent_enabled (s := { s with sched := d :: s.sched }) hn, ht⟩

/-- Settles O9: the chosen agent's step is the operation R69 names for it, the driver's the one of its
phase. -/
theorem stepExecutesAgentStep : Obligations.StepExecutesAgentStep := by
  intro s c i hf hn h
  rw [step_eq_stepAs hf hn, stepAs_running (by simpa using hf)]
  obtain ⟨rfl, rfl⟩ | ⟨rfl, rfl⟩ | ⟨rfl, rfl⟩ | ⟨rfl, rfl⟩ | ⟨rfl, hd⟩ := h
  case inr.inr.inr.inr =>
    have hi : phaseStep s.drvPhase = some i := by
      obtain ⟨e, rfl⟩ | ⟨e, rfl⟩ | ⟨e, rfl⟩ | ⟨e, rfl⟩ | ⟨e, rfl⟩ | ⟨e, rfl⟩ := hd
      all_goals rw [e, phaseStep]
    rw [agentStep, driverTurn, consumeChoice_drvPhase, hi]
  all_goals rfl

/-- Settles O11: each agent's enabling condition is that of the operation it executes. -/
theorem enabledStepsComplete : Obligations.EnabledStepsComplete := by
  intro s c h
  rw [stepAs_running (enabled_running h)]
  cases c with
  | host =>
    obtain ⟨hf, hd⟩ := enabled_host.1 h
    exact hostStep_eq_next hf hd
  | scrollTimer =>
    obtain ⟨hf, he⟩ := enabled_scrollTimer.1 h
    exact ⟨_, exec_enabled (i := .scrollExpire) hf he⟩
  | countTimer =>
    obtain ⟨hf, he⟩ := enabled_countTimer.1 h
    exact ⟨_, exec_enabled (i := .countSubtick) hf he⟩
  | scrollHandler =>
    obtain ⟨hf, he⟩ := enabled_scrollHandler.1 h
    exact ⟨_, exec_enabled (i := .scrollIrq) hf he⟩
  | countHandler =>
    obtain ⟨hf, he⟩ := enabled_countHandler.1 h
    exact ⟨_, exec_enabled (i := .countIrq) hf he⟩
  | driver =>
    obtain ⟨hf, hp⟩ := enabled_driver.1 h
    obtain ⟨i, hi, he⟩ := phaseStep_enabled hp
    rw [agentStep, driverTurn, hi]
    exact ⟨_, exec_enabled hf he⟩

end Sys2Proof.Machine

/-! ## Words and counted bytes (30_encoding.md R83, R85; 20_memory.md R62) -/

namespace Sys2Proof

theorem wordOfBytes_bytesOfWord (w : Word) :
    wordOfBytes (w.extractLsb' 0 8) (w.extractLsb' 8 8) (w.extractLsb' 16 8)
      (w.extractLsb' 24 8) = w := by
  apply BitVec.eq_of_toNat_eq
  simp only [wordOfBytes_toNat, BitVec.extractLsb'_toNat, Nat.shiftRight_eq_div_pow]
  omega

theorem bytesOfWord_wordOfBytes (b1 b2 b3 b4 : Byte) :
    bytesOfWord (wordOfBytes b1 b2 b3 b4) = [b1, b2, b3, b4] := by
  simp only [bytesOfWord, List.cons.injEq, and_true]
  refine ⟨?_, ?_, ?_, ?_⟩
  all_goals
    apply BitVec.eq_of_toNat_eq
    simp only [BitVec.extractLsb'_toNat, wordOfBytes_toNat, Nat.shiftRight_eq_div_pow]
    omega

/-- The bytes of an operand given as a number: byte `k` is the quotient by `256 ^ k`. -/
theorem bytesOfWord_ofNat (n : Nat) :
    bytesOfWord (BitVec.ofNat 32 n) =
      [BitVec.ofNat 8 n, BitVec.ofNat 8 (n / 2 ^ 8), BitVec.ofNat 8 (n / 2 ^ 16),
        BitVec.ofNat 8 (n / 2 ^ 24)] := by
  rw [← bytesOfWord_wordOfBytes]
  congr 1
  apply BitVec.eq_of_toNat_eq
  simp only [wordOfBytes_toNat, BitVec.toNat_ofNat]
  omega

theorem splitBytes_eq (n : Nat) (bs : List Byte) :
    splitBytes n bs = if n ≤ bs.length then some (bs.take n, bs.drop n) else none := by
  induction n generalizing bs with
  | zero => simp [splitBytes]
  | succ n ih =>
    cases bs with
    | nil => simp [splitBytes]
    | cons b bs =>
      rw [splitBytes, ih]
      by_cases h : n ≤ bs.length <;> simp [h]

/-- Format FT: the characters its length byte counts, where there are as many (30_encoding.md R83,
R89). -/
theorem decodeFT_cons (len : Byte) (bytes : List Byte) :
    decodeFT (len :: bytes) =
      if len.toNat ≤ bytes.length then
        .command (.displayText (bytes.take len.toNat)) (bytes.drop len.toNat)
      else .tooShort := by
  rw [decodeFT, splitBytes_eq]
  by_cases h : len.toNat ≤ bytes.length <;> simp [h]

/-- Format FW: four bytes of operand, where there are as many (30_encoding.md R83, R89). -/
theorem decodeFW_of_length_lt {mk : Word → Instr} {bytes : List Byte} (h : bytes.length < 4) :
    decodeFW mk bytes = .tooShort := by
  unfold decodeFW
  split
  · simp only [List.length_cons] at h
    omega
  · rfl

theorem decodeFW_of_le_length {mk : Word → Instr} {bytes : List Byte} (h : 4 ≤ bytes.length) :
    ∃ w, decodeFW mk bytes = .command (mk w) (bytes.drop 4) := by
  match bytes, h with
  | b1 :: b2 :: b3 :: b4 :: rest, _ => exact ⟨wordOfBytes b1 b2 b3 b4, rfl⟩

theorem decodeFW_eq_command_iff {mk : Word → Instr} {bs rest : List Byte} {i : Instr} :
    decodeFW mk bs = .command i rest ↔ ∃ w, i = mk w ∧ bs = bytesOfWord w ++ rest := by
  constructor
  · intro h
    unfold decodeFW at h
    split at h <;> cases h
    exact ⟨_, rfl, by rw [bytesOfWord_wordOfBytes]; rfl⟩
  · rintro ⟨w, rfl, rfl⟩
    exact congrArg (fun v => Decoded.command (mk v) rest) (wordOfBytes_bytesOfWord w)

theorem decodeFT_eq_command_iff {bs rest : List Byte} {i : Instr} :
    decodeFT bs = .command i rest ↔
      ∃ text, text.length ≤ 255 ∧ i = .displayText text ∧
        bs = BitVec.ofNat 8 text.length :: (text ++ rest) := by
  constructor
  · intro h
    cases bs with
    | nil => cases h
    | cons len bytes =>
      rw [decodeFT_cons] at h
      split_ifs at h with hle
      cases h
      have hlen : (bytes.take len.toNat).length = len.toNat := List.length_take_of_le hle
      refine ⟨bytes.take len.toNat, ?_, rfl, ?_⟩
      · rw [hlen]
        exact Nat.le_of_lt_succ len.isLt
      · rw [hlen, BitVec.ofNat_toNat, BitVec.setWidth_eq, List.take_append_drop]
  · rintro ⟨text, hle, rfl, rfl⟩
    have hlen : (BitVec.ofNat 8 text.length).toNat = text.length :=
      Nat.mod_eq_of_lt (Nat.lt_succ_of_le hle)
    rw [decodeFT_cons, hlen, if_pos (by simp), List.take_left, List.drop_left]

end Sys2Proof

/-! ## The decoder inverts the encoder (30_encoding.md R83, R86, R87, R89, R91) -/

namespace Sys2Proof

/-- A byte that is no opcode of the table of R86 is reserved (30_encoding.md R87). -/
theorem decodeHost_reserved {op : Byte} (h : op = 0x00 ∨ 0x06 ≤ op.toNat) (rest : List Byte) :
    decodeHost (op :: rest) = .reserved op rest := by
  have hne : op ≠ 0x01 ∧ op ≠ 0x02 ∧ op ≠ 0x03 ∧ op ≠ 0x04 ∧ op ≠ 0x05 := by bv_omega
  obtain ⟨h1, h2, h3, h4, h5⟩ := hne
  rw [decodeHost, if_neg h1, if_neg h2, if_neg h3, if_neg h4, if_neg h5]

/-- The strings that decode to a command are its encoding, with any bytes after it (30_encoding.md R83,
R90). -/
theorem decodeHost_eq_command_iff {bs rest : List Byte} {i : Instr} :
    decodeHost bs = .command i rest ↔
      i.wellFormed = true ∧ i.isHostCommand = true ∧ bs = encode i ++ rest := by
  constructor
  · intro h
    cases bs with
    | nil => cases h
    | cons op bytes =>
      simp only [decodeHost] at h
      split_ifs at h with h1 h2 h3 h4 h5
      · cases h
        exact ⟨rfl, rfl, by rw [h1]; rfl⟩
      · obtain ⟨text, hle, rfl, rfl⟩ := decodeFT_eq_command_iff.1 h
        exact ⟨decide_eq_true hle, rfl, by rw [h2]; rfl⟩
      · obtain ⟨n, rfl, rfl⟩ := decodeFW_eq_command_iff.1 h
        exact ⟨rfl, rfl, by rw [h3]; rfl⟩
      · obtain ⟨hours, rfl, rfl⟩ := decodeFW_eq_command_iff.1 h
        exact ⟨rfl, rfl, by rw [h4]; rfl⟩
      · cases h
        exact ⟨rfl, rfl, by rw [h5]; rfl⟩
  · rintro ⟨hwf, hc, rfl⟩
    cases i with
    | init | runDisplayLoop => rfl
    | displayText text => exact decodeFT_eq_command_iff.2 ⟨text, of_decide_eq_true hwf, rfl, rfl⟩
    | displayNumber n => exact decodeFW_eq_command_iff.2 ⟨n, rfl, rfl⟩
    | startCountdown h => exact decodeFW_eq_command_iff.2 ⟨h, rfl, rfl⟩
    | _ => cases hc

/-- Settles O1, by the decoder's inversion, read from right to left. -/
theorem decodeHostOfEncode : Obligations.DecodeHostOfEncode :=
  fun _ _ hwf hc => decodeHost_eq_command_iff.2 ⟨hwf, hc, rfl⟩

/-- Settles O3, by the decoder's inversion, read from left to right. -/
theorem decodedCommandIsItsEncoding : Obligations.DecodedCommandIsItsEncoding :=
  fun _ _ _ => decodeHost_eq_command_iff.1

/-- The ids of the internal steps (30_encoding.md R92). -/
theorem opcode_of_internal {i : Instr} (h : i.isHostCommand = false) :
    0x80 ≤ i.opcode.toNat ∧ i.opcode.toNat ≤ 0x8B := by
  cases i with
  | init | displayText | displayNumber | startCountdown | runDisplayLoop => cases h
  | _ => simp [Instr.opcode]

theorem encode_eq_cons (i : Instr) : encode i = i.opcode :: (encode i).tail := by
  cases i <;> rfl

theorem decodeStepId_encode {i : Instr} (h : i.isHostCommand = false) (rest : List Byte) :
    decodeStepId (encode i ++ rest) = some (i, rest) := by
  cases i with
  | init | displayText | displayNumber | startCountdown | runDisplayLoop => cases h
  | _ => rfl

/-- Settles O2: the ids are reserved opcodes since they are above 0x05. -/
theorem internalStepIdsAreNoCommands : Obligations.InternalStepIdsAreNoCommands := by
  intro i rest h
  obtain ⟨hlow, hhigh⟩ := opcode_of_internal h
  refine ⟨hlow, hhigh, decodeStepId_encode h rest, (encode i).tail ++ rest, ?_⟩
  rw [encode_eq_cons, List.cons_append]
  exact decodeHost_reserved (.inr (by omega)) _

/-- Settles O6, by running the decoders. -/
theorem specWordsDecode : Obligations.SpecWordsDecode := by
  unfold Obligations.SpecWordsDecode
  decide

end Sys2Proof

/-! ## The host port's step (30_encoding.md R84, R87, R88, R89) -/

namespace Sys2Proof.Machine

theorem stepAs_host {s : State} (hf : s.faultCode = .none) : stepAs .host s = hostStep exec s :=
  stepAs_running hf

theorem stepAs_host_of_tooShort {s : State} (h : decodeHost s.hostQueue = .tooShort) (t : State) :
    stepAs .host s ≠ .next t := by
  intro ht
  rw [stepAs_host (stepAs_next_running ht), hostStep, h] at ht
  cases ht

/-- Settles O4: the format of byte 0 gives each length. -/
theorem commandLengthIsDecidedByItsFirstBytes :
    Obligations.CommandLengthIsDecidedByItsFirstBytes := by
  refine ⟨fun op rest => ⟨?_, ?_, ?_, fun h => decodeHost_reserved h rest⟩, rfl,
    fun s h => ⟨?_, stepAs_host_of_tooShort h⟩⟩
  · rintro (rfl | rfl)
    · exact ⟨.init, rfl⟩
    · exact ⟨.runDisplayLoop, rfl⟩
  · rintro (rfl | rfl)
    all_goals
      refine ⟨decodeFW_of_length_lt, fun h => ?_⟩
      obtain ⟨w, e⟩ := decodeFW_of_le_length h
      exact ⟨_, e⟩
  · rintro rfl
    refine ⟨?_, ?_⟩
    · rintro rfl
      rfl
    · rintro len tail rfl
      have e : decodeHost (0x02 :: len :: tail) = decodeFT (len :: tail) := rfl
      rw [e, decodeFT_cons]
      exact ⟨fun h => if_neg (by omega), fun h => ⟨_, if_pos h⟩⟩
  · rw [← Bool.not_eq_true, enabled_host]
    exact fun he => he.2 h

/-- Settles O8: the choice of the agent writes nothing of the stream. -/
theorem stepExecutesHostCommand : Obligations.StepExecutesHostCommand := by
  intro s i rest hf hn hd
  rw [step_eq_stepAs hf hn, stepAs_host (by simpa using hf), hostStep, consumeChoice_hostQueue, hd]

/-- Settles O18: the byte is removed, and the fault is raised in a step that is always enabled. -/
theorem reservedOpcodeIsIllegalCommand : Obligations.ReservedOpcodeIsIllegalCommand := by
  intro s op rest hf hq hop
  rw [stepAs_host hf, hostStep, hq, decodeHost_reserved hop]
  exact takeStep_enabled hf rfl

/-- An encode may overflow the buffer, and raises no other fault (41_image_encoder.md R110). -/
theorem encode_raises_no_protocolViolation {p : Params} {body : State → Flow} {s : State}
    (hb : ∃ cols, ∀ t, body t = pushAll p cols (beginContent t)) (hf : s.faultCode = .none) :
    (atomic body s).faultCode ≠ .protocolViolation := by
  obtain ⟨cols, hb⟩ := hb
  obtain ⟨buf, len, -, -, e | e⟩ := encode_cases (p := p) cols (maskInterrupts s)
  all_goals
    rw [atomic, hb, e]
    simp [hf]

theorem beginCountdown_faultCode (h : Word) (s : State) :
    (beginCountdown h s).faultCode = s.faultCode := by
  unfold beginCountdown
  split <;> rfl

theorem startCountdown_precondition (h : Word) (s : State) :
    hostPrecondition (.startCountdown h) s ↔
      s.loopRun = false ∧ (s.initDone && decide (s.cdState = .idle)) = true := by
  simp [hostPrecondition]

/-- A host command is the critical section of its opcode: its check is the command's precondition, and
its body raises no PROTOCOL_VIOLATION (30_encoding.md R88). -/
theorem opRule_hostCommand {p : Params} {i : Instr} (hc : i.isHostCommand = true) :
    ∃ (pre : State → Bool) (body : State → Flow), opRule p i = commandRule i.opcode pre body ∧
      (∀ s, hostPrecondition i s ↔ s.loopRun = false ∧ pre (maskInterrupts s) = true) ∧
      ∀ s, s.faultCode = .none → (atomic body s).faultCode ≠ .protocolViolation := by
  cases i with
  | init => exact ⟨_, _, rfl, by simp [hostPrecondition], by simp +contextual [atomic]⟩
  | displayText text =>
    exact ⟨_, _, rfl, by simp [hostPrecondition],
      fun _ => encode_raises_no_protocolViolation ⟨_, textBody_eq_pushAll text⟩⟩
  | displayNumber n =>
    exact ⟨_, _, rfl, by simp [hostPrecondition],
      fun _ => encode_raises_no_protocolViolation (numberBody_eq_pushAll p n)⟩
  | startCountdown h =>
    exact ⟨_, _, rfl, startCountdown_precondition h,
      by simp +contextual [atomic, beginCountdown_faultCode]⟩
  | runDisplayLoop => exact ⟨_, _, rfl, by simp [hostPrecondition], by simp +contextual [atomic]⟩
  | _ => cases hc

/-- Settles O17: the check of the critical section is the precondition. -/
theorem preconditionFailureIsProtocolViolation :
    Obligations.PreconditionFailureIsProtocolViolation := by
  intro i s hc hf
  obtain ⟨pre, body, e, hpre, hbody⟩ := opRule_hostCommand (p := Config.params) hc
  rw [exec_enabled hf (opEnabled_of_isHostCommand hc s), e, hpre]
  obtain ⟨hl, hp, er⟩ | ⟨hfail, er⟩ := commandRule_cases i.opcode pre body s <;> rw [er]
  · exact ⟨fun hn => absurd ⟨hl, hp⟩ hn, fun _ => ⟨_, rfl, hbody s hf⟩⟩
  · refine ⟨fun _ => rfl, fun ⟨hl, hp⟩ => ?_⟩
    simp [hl, hp] at hfail

end Sys2Proof.Machine

/-! ## The assembler's lines (30_encoding.md R93) -/

namespace Sys2Proof.Machine

theorem asmWord_of_lt {n : Nat} (h : n < 2 ^ 32) : asmWord n = some (BitVec.ofNat 32 n) := if_pos h

theorem asmWord_eq_none_iff {n : Nat} : asmWord n = none ↔ 2 ^ 32 ≤ n := by
  rw [asmWord, ite_eq_right_iff, imp_iff_not (Option.some_ne_none _), Nat.not_lt]

theorem number_command {n : Nat} (h : n < 2 ^ 32) :
    (AsmLine.number n).command = some (.displayNumber (BitVec.ofNat 32 n)) := by
  rw [AsmLine.command, asmWord_of_lt h, Option.map_some]

theorem countdown_command {h : Nat} (hh : h < 2 ^ 32) :
    (AsmLine.countdown h).command = some (.startCountdown (BitVec.ofNat 32 h)) := by
  rw [AsmLine.command, asmWord_of_lt hh, Option.map_some]

theorem text_command {bytes : List Byte} (h : bytes.length ≤ 255) :
    (AsmLine.text bytes).command = some (.displayText bytes) := if_pos h

theorem assembleLine_eq_none_iff {l : AsmLine} : assembleLine l = none ↔ l.command = none :=
  Option.map_eq_none_iff

theorem assembleLine_of_command {l : AsmLine} {i : Instr} (h : l.command = some i) :
    assembleLine l = some (encode i) := by
  rw [assembleLine, h, Option.map_some]

/-- What a line stands for is a command that has an encoding. -/
theorem command_wellFormed {l : AsmLine} {i : Instr} (h : l.command = some i) :
    i.wellFormed = true ∧ i.isHostCommand = true := by
  cases l with
  | init | run | clear =>
    cases h
    exact ⟨rfl, rfl⟩
  | text bytes =>
    obtain ⟨hle, e⟩ := Option.ite_none_right_eq_some.1 h
    cases e
    exact ⟨decide_eq_true hle, rfl⟩
  | number n | countdown n | days n =>
    obtain ⟨w, -, rfl⟩ := Option.map_eq_some_iff.1 h
    exact ⟨rfl, rfl⟩

/-- The bytes of a line that assembles decode to its command (30_encoding.md R93). -/
theorem decodeHost_assembleLine {l : AsmLine} {bytes : List Byte} (rest : List Byte)
    (h : assembleLine l = some bytes) :
    ∃ i, l.command = some i ∧ decodeHost (bytes ++ rest) = .command i rest := by
  obtain ⟨i, hi, rfl⟩ := Option.map_eq_some_iff.1 h
  obtain ⟨hwf, hc⟩ := command_wellFormed hi
  exact ⟨i, hi, decodeHost_eq_command_iff.2 ⟨hwf, hc, rfl⟩⟩

/-- Settles O7: a line assembles to the encoding of its command. -/
theorem assembledLinesDecode : Obligations.AssembledLinesDecode := by
  refine ⟨rfl, fun _ h => assembleLine_of_command (text_command h), fun n h => ?_, fun n h => ?_,
    rfl, rfl, ⟨rfl, rfl, rfl, fun _ => text_command, fun _ => number_command,
      fun _ => countdown_command⟩, fun _ _ rest => decodeHost_assembleLine rest, rfl,
    fun _ => rfl, fun n => ?_, fun n => ?_, fun bytes => ?_⟩
  · rw [assembleLine_of_command (number_command h), encode, bytesOfWord_ofNat]
  · rw [assembleLine_of_command (countdown_command h), encode, bytesOfWord_ofNat]
  · rw [assembleLine_eq_none_iff, AsmLine.command, Option.map_eq_none_iff, asmWord_eq_none_iff]
  · rw [assembleLine_eq_none_iff, AsmLine.command, Option.map_eq_none_iff, asmWord_eq_none_iff]
  · rw [assembleLine_eq_none_iff, AsmLine.command]
    simp

end Sys2Proof.Machine

namespace Sys2Proof.Machine

/-! ## Font ROM -/

section FontRom

variable {rom : FontRom} {c : Byte} {w w' : WidthClass} {g g' : List ColImage}

/-- A glyph's columns are a vector of its class's length (40_font_rom.md R101 (a)). -/
theorem length_of_romRead (h : romRead rom w c = some g) : g.length = w.columns := by
  cases w <;>
  · obtain ⟨v, -, rfl⟩ := Option.map_eq_some_iff.1 h
    exact v.length_toList

/-- `FontRom.unique` of the classes as FONT_LOOKUP reads them. -/
theorem romRead_count_le_one (rom : FontRom) (c : Byte) :
    (romRead rom .w1 c).isSome.toNat + (romRead rom .w2 c).isSome.toNat +
      (romRead rom .w3 c).isSome.toNat ≤ 1 := by
  simpa only [romRead, Option.isSome_map] using rom.unique c

/-- Two classes that both had the character would count 2 (40_font_rom.md R101 (b)). -/
theorem widthClass_unique (h : romRead rom w c = some g) (h' : romRead rom w' c = some g') :
    w = w' := by
  have hc := romRead_count_le_one rom c
  cases w <;> cases w' <;> simp [h, h'] at hc ⊢ <;> omega

theorem exists_romRead_w3 (h : (rom.w3 c).isSome) : ∃ g, romRead rom .w3 c = some g :=
  Option.isSome_iff_exists.1 (Option.isSome_map.trans h)

theorem exists_romRead_zero (rom : FontRom) : ∃ w g, romRead rom w 0x30 = some g := by
  obtain h | h | h := rom.zero
  · exact ⟨.w1, Option.isSome_iff_exists.1 (Option.isSome_map.trans h)⟩
  · exact ⟨.w2, Option.isSome_iff_exists.1 (Option.isSome_map.trans h)⟩
  · exact ⟨.w3, exists_romRead_w3 h⟩

/-- The search along the classes takes the next class only where the last has no match. -/
theorem fontLookup_eq_or (rom : FontRom) (c : Byte) :
    fontLookup rom c = (romRead rom .w1 c).or ((romRead rom .w2 c).or (romRead rom .w3 c)) := by
  simp only [fontLookup, List.findSome?_cons, List.findSome?_nil]
  cases romRead rom .w1 c with
  | some g => rfl
  | none =>
    cases romRead rom .w2 c with
    | some g => rfl
    | none => cases romRead rom .w3 c <;> rfl

theorem fontLookup_eq_none_iff : fontLookup rom c = none ↔ ∀ w, romRead rom w c = none := by
  rw [fontLookup, List.findSome?_eq_none_iff]
  exact forall_congr' fun w => by cases w <;> simp

/-- The first match is the only one, since at most one class has the character. -/
theorem fontLookup_of_romRead (h : romRead rom w c = some g) : fontLookup rom c = some g := by
  cases hl : fontLookup rom c with
  | none => rw [fontLookup_eq_none_iff.1 hl w] at h; cases h
  | some g' =>
    obtain ⟨w', -, h'⟩ := List.exists_of_findSome?_eq_some hl
    cases widthClass_unique h h'
    rw [← h', h]

end FontRom

/-- Settles O26: what holds of every font ROM holds of the machine's. -/
theorem fontRomIsAdmissible : Obligations.FontRomIsAdmissible :=
  ⟨fun _ _ _ => length_of_romRead, fun _ _ _ _ _ => widthClass_unique,
    congrArg (Option.map Vector.toList) Config.fontRom.one, exists_romRead_w3 Config.fontRom.two,
    exists_romRead_w3 Config.fontRom.eight, exists_romRead_zero _⟩

/-- Settles O27: the first matching class is the only one, and the operation's rule is the identity. -/
theorem fontLookupFindsTheMatchingClass : Obligations.FontLookupFindsTheMatchingClass :=
  ⟨fontLookup_eq_or, fun _ _ _ _ => fontLookup_of_romRead, fun _ _ => fontLookup_eq_none_iff.2,
    fun c _ => ⟨rfl, fun hf => exec_enabled (i := .fontLookup c) hf rfl⟩⟩

end Sys2Proof.Machine

/-! ## The image encoder's commands (41_image_encoder.md R114, R117, R118, R120) -/

namespace Sys2Proof.Machine

/-- Settles O22: the two commands are one kind of critical section, and their bodies are equal. -/
theorem numberIsTextOfItsDigits : Obligations.NumberIsTextOfItsDigits := by
  refine ⟨fun n s hl => ?_, fun _ => numberBody_eq_textBody⟩
  by_cases hf : s.faultCode = .none
  · rw [exec_enabled hf rfl, exec_enabled hf rfl, opRule, opRule, commandRule_accepted hl rfl,
      commandRule_accepted hl rfl, funext (numberBody_eq_textBody n)]
  · rw [exec_halted hf, exec_halted hf]

/-- `i` is the encoding command that shows this text: DISPLAY_TEXT of it, or DISPLAY_NUMBER of the
number whose decimal text it is (41_image_encoder.md R114, R117). -/
def EncodesText (i : Instr) (text : List Byte) : Prop :=
  i = .displayText text ∨ ∃ n : Word, i = .displayNumber n ∧ text = decimalText n.toNat

theorem encodesText_displayText (text : List Byte) : EncodesText (.displayText text) text := .inl rfl

theorem encodesText_displayNumber (n : Word) :
    EncodesText (.displayNumber n) (decimalText n.toNat) := .inr ⟨n, rfl, rfl⟩

section EncodingCommand

variable {i : Instr} {text : List Byte} {s t : State}

/-- An encoding command outside the loop, with content that fits. -/
theorem exec_encode_fits (hi : EncodesText i text) (hf : s.faultCode = .none) (hs : s.storageWf)
    (hl : s.loopRun = false) (h : (textContent Config.fontRom text).length ≤ Config.cap) :
    exec i s = .next { withContent s (textContent Config.fontRom text) with imask := false } := by
  obtain ⟨he, op, body, hrule, hb⟩ := opRule_encode (p := Config.params) hi
  rw [exec_enabled hf (he s), hrule, encodeCommand_fits hb hl hs.1 h]
  rfl

/-- An encoding command outside the loop, with content beyond the capacity. -/
theorem exec_encode_overflows (hi : EncodesText i text) (hf : s.faultCode = .none)
    (hs : s.storageWf) (hl : s.loopRun = false)
    (h : Config.cap < (textContent Config.fontRom text).length) :
    ∃ buf : List ColImage, buf.length = Config.cap ∧
      exec i s = .next (faulted { s with imgBuf := buf, imgLen := Config.cap, curValid := false }
        .capacityExceeded (BitVec.ofNat 32 (Config.cap + 1))) := by
  obtain ⟨he, op, body, hrule, hb⟩ := opRule_encode (p := Config.params) hi
  obtain ⟨buf, hlen, e⟩ := encodeCommand_overflows (op := op) hb hl hs.1 h
  refine ⟨buf, hlen, ?_⟩
  rw [exec_enabled hf (he s), hrule, e]
  rfl

/-- No host command runs beside the loop (30_encoding.md R88). -/
theorem exec_hostCommand_of_loopRun (hc : i.isHostCommand = true) (hf : s.faultCode = .none)
    (hl : s.loopRun = true) :
    exec i s = .next (faulted s .protocolViolation (zext32 i.opcode)) :=
  (preconditionFailureIsProtocolViolation i s hc hf).1 fun ⟨hl', _⟩ =>
    Bool.false_ne_true (hl'.symm.trans hl)

/-- All that an encoding command can leave. -/
theorem exec_encode_cases (hi : EncodesText i text) (hs : s.storageWf)
    (h : exec i s = .next t) :
    t = { withContent s (textContent Config.fontRom text) with imask := false } ∨
      (∃ buf : List ColImage,
        t = faulted { s with imgBuf := buf, imgLen := Config.cap, curValid := false }
          .capacityExceeded (BitVec.ofNat 32 (Config.cap + 1))) ∨
      t = faulted s .protocolViolation (zext32 i.opcode) := by
  have hf := (exec_eq_next.1 h).1
  have hc : i.isHostCommand = true := by
    obtain rfl | ⟨n, rfl, -⟩ := hi <;> rfl
  by_cases hl : s.loopRun = true
  · rw [exec_hostCommand_of_loopRun hc hf hl] at h
    cases h
    exact .inr (.inr rfl)
  · rw [Bool.not_eq_true] at hl
    obtain hfit | hover := le_or_gt (textContent Config.fontRom text).length Config.cap
    · rw [exec_encode_fits hi hf hs hl hfit] at h
      cases h
      exact .inl rfl
    · obtain ⟨buf, -, e⟩ := exec_encode_overflows hi hf hs hl hover
      rw [e] at h
      cases h
      exact .inr (.inl ⟨buf, rfl⟩)

end EncodingCommand

/-- Settles O20: the content that fits, the content that does not, and a command beside the loop. -/
theorem displayTextResult : Obligations.DisplayTextResult :=
  fun text => ⟨rfl, fun _ hf hs => ⟨exec_encode_fits (encodesText_displayText text) hf hs,
    exec_encode_overflows (encodesText_displayText text) hf hs, exec_hostCommand_of_loopRun rfl hf⟩⟩

/-- Settles O21: as for DISPLAY_TEXT, with the decimal text of the number. -/
theorem displayNumberResult : Obligations.DisplayNumberResult :=
  fun n => ⟨rfl, fun _ hf hs => ⟨exec_encode_fits (encodesText_displayNumber n) hf hs,
    exec_encode_overflows (encodesText_displayNumber n) hf hs, exec_hostCommand_of_loopRun rfl hf⟩⟩

end Sys2Proof.Machine

/-! ## Pushes and APPEND_GLYPH (41_image_encoder.md R110, R112) -/

namespace Sys2Proof.Machine

theorem push_full {p : Params} (v : ColImage) {s : State} (h : s.imgLen = p.cap) :
    push p v s = raise .capacityExceeded (BitVec.ofNat 32 (p.cap + 1)) s := if_pos h

theorem push_of_ne_cap {p : Params} (v : ColImage) {s : State} (h : s.imgLen ≠ p.cap) :
    push p v s = .ok (storeColumn v s) := if_neg h

theorem content_storeColumn (v : ColImage) {s : State} (h : s.imgLen < s.imgBuf.length) :
    content (storeColumn v s) = content s ++ [v] := by
  have hlen : s.imgLen < (s.imgBuf.set s.imgLen v).length := by simpa using h
  simp [content, List.take_succ_eq_append_getElem hlen, List.take_set_of_le]

/-- Settles O29: the two branches of a push, and the content after the store. -/
theorem pushResult : Obligations.PushResult :=
  fun _ v _ => ⟨push_full v, push_of_ne_cap v, content_storeColumn v⟩

/-- The columns that APPEND_GLYPH pushes, read off the font ROM. -/
theorem glyphColumns_append_blank (rom : FontRom) (c : Byte) :
    glyphColumns rom c ++ [blankColumn] =
      match fontLookup rom c with
      | some g => g ++ [0b00000]
      | none => [0b00000] := by
  unfold glyphColumns
  cases fontLookup rom c <;> rfl

theorem exec_appendGlyph {c : Byte} {s : State} (hf : s.faultCode = .none) :
    exec (.appendGlyph c) s = .next (settle (pushAll Config.params
      (glyphColumns Config.fontRom c ++ [blankColumn]) s)) := by
  rw [exec_enabled (i := .appendGlyph c) hf rfl, ← params_font,
    ← appendGlyph_eq_pushAll]
  rfl

/-- Settles O28: its pushes fit, or they overflow. -/
theorem appendGlyphResult : Obligations.AppendGlyphResult := by
  refine fun c => ⟨rfl, fun s hf ⟨hc, hl⟩ cols hcols => ?_⟩
  rw [exec_appendGlyph hf, (glyphColumns_append_blank Config.fontRom c).trans hcols.symm]
  refine ⟨fun h => ?_, fun h => ?_⟩
  · rw [pushAll_fits (p := Config.params) cols s hc h]
    rfl
  · obtain ⟨buf, hb, e⟩ := pushAll_overflows (p := Config.params) cols s hc hl h
    rw [e]
    exact ⟨buf, hb, rfl⟩

end Sys2Proof.Machine

/-! ## The cursor and the buffer after an encode (41_image_encoder.md R118) -/

namespace Sys2Proof.Machine

/-- COUNT_IRQ in RUNNING, where the number of the hours left does not fit: the decrement stays, the
buffer is full, and the flag is not cleared (44_tick_scheduler.md R194; 90_conflicts.md C10). -/
theorem opRule_countIrq_overflows {p : Params} {s : State} {text : List Byte}
    (hr : s.cdState = .running)
    (ht : text = decimalText ((s.cdHours - 1).toNat / p.hoursPerUnit.toNat))
    (hc : s.imgBuf.length = p.cap) (h : p.cap < (textContent p.font text).length) :
    ∃ buf : List ColImage, buf.length = p.cap ∧
      opRule p .countIrq s = faulted
        { decrementHours s with imgBuf := buf, imgLen := p.cap, curValid := false }
        .capacityExceeded (BitVec.ofNat 32 (p.cap + 1)) := by
  obtain ⟨buf, hb, e⟩ := pushAll_begin_overflows (p := p) (textContent p.font text)
    (decrementHours (maskInterrupts s)) (by simpa [decrementHours_eq] using hc) h
  refine ⟨buf, hb, ?_⟩
  have hshow : showHours p (decrementHours (maskInterrupts s)) =
      pushAll p (textContent p.font text) (beginContent (decrementHours (maskInterrupts s))) := by
    rw [showHours, numberBody_eq_pushAll_textContent, BitVec.toNat_udiv, ht, decrementHours_eq,
      maskInterrupts_cdHours]
  rw [opRule, atomic, countHandlerBody, if_pos (by simpa using hr), hshow, e, decrementHours_eq,
    decrementHours_eq]
  rfl

/-- A tick on content with the cursor unset starts it at column 0 (42_scroll.md R142). -/
theorem exec_scrollIrq_of_unset {s : State} (hf : s.faultCode = .none) (hp : s.scrPend = true)
    (hv : s.curValid = false) (hl : s.imgLen ≠ 0) :
    ∃ u, exec .scrollIrq s = .next u ∧ u.curValid = true ∧ u.curIdx = 0 := by
  have hcur : nextCursor s = 0 := by simp [nextCursor, hv]
  obtain ⟨h0, -⟩ | ⟨-, e⟩ := scrollIrq_cases Config.params s
  · exact absurd h0 hl
  · rw [exec_enabled (i := .scrollIrq) hf hp, e]
    exact ⟨_, rfl, rfl, hcur⟩

/-- A buffer with a blank frame in it keeps at least 5 columns through an encoding command. -/
theorem encode_keeps_five {i : Instr} {text : List Byte} {s t : State} (hi : EncodesText i text)
    (hs : s.storageWf) (h5 : 5 ≤ s.imgLen) (h : exec i s = .next t) : 5 ≤ t.imgLen := by
  obtain rfl | ⟨buf, rfl⟩ | rfl := exec_encode_cases hi hs h
  · exact five_le_textContent_length _ _
  · exact params_admissible.blankFrame
  · exact h5

/-- The same through COUNT_IRQ, which re-encodes in RUNNING and else leaves the buffer alone. -/
theorem countIrq_keeps_five {s t : State} (hs : s.storageWf) (h5 : 5 ≤ s.imgLen)
    (h : exec .countIrq s = .next t) : 5 ≤ t.imgLen := by
  obtain ⟨-, -, rfl⟩ := exec_eq_next.1 h
  obtain ⟨-, e⟩ | ⟨hr, -⟩ := countIrq_cases Config.params s
  · rw [e]
    exact h5
  · obtain hfit | hover := le_or_gt (textContent Config.params.font
      (decimalText ((s.cdHours - 1).toNat / Config.params.hoursPerUnit.toNat))).length
      Config.params.cap
    · rw [opRule_countIrq_fits hr rfl hs.1 hfit]
      exact five_le_textContent_length _ _
    · obtain ⟨buf, -, e⟩ := opRule_countIrq_overflows hr rfl hs.1 hover
      rw [e]
      exact params_admissible.blankFrame

/-- Every writer of IMG_LEN (`sharedStateWriters`) keeps at least 5 columns. -/
theorem exec_keeps_five {i : Instr} {s t : State} (hs : s.storageWf) (h5 : 5 ≤ s.imgLen)
    (h : exec i s = .next t) : 5 ≤ t.imgLen := by
  by_cases hlen : t.imgLen = s.imgLen
  · rwa [hlen]
  · obtain ⟨-, hw, -⟩ := sharedStateWriters i s t h
    obtain ⟨text, rfl⟩ | ⟨n, rfl⟩ | rfl | ⟨c, rfl⟩ := hw (.inr hlen)
    · exact encode_keeps_five (encodesText_displayText text) hs h5 h
    · exact encode_keeps_five (encodesText_displayNumber n) hs h5 h
    · exact countIrq_keeps_five hs h5 h
    · rw [exec_appendGlyph (exec_eq_next.1 h).1] at h
      cases h
      exact h5.trans (imgLen_le_settle_pushAll _ s)

/-- An encode that completes leaves its content, which ends with the blank frame. -/
theorem encode_completes {i : Instr} {text : List Byte} {s t : State} (hi : EncodesText i text)
    (hs : s.storageWf) (h : exec i s = .next t) (ht : t.faultCode = .none) :
    t.curValid = false ∧ 5 ≤ t.imgLen := by
  obtain rfl | ⟨buf, rfl⟩ | rfl := exec_encode_cases hi hs h
  · exact ⟨rfl, five_le_textContent_length _ _⟩
  · cases ht
  · cases ht

/-- Settles O23: an unset cursor on 5 columns or more starts at 0, and every writer of IMG_LEN keeps as
many. -/
theorem encodeResetsTheCursor : Obligations.EncodeResetsTheCursor := by
  refine ⟨fun i s t hi hs h ht => ?_, fun _ _ _ => exec_keeps_five⟩
  have hdone : t.curValid = false ∧ 5 ≤ t.imgLen := by
    obtain ⟨text, rfl⟩ | ⟨n, rfl⟩ := hi
    · exact encode_completes (encodesText_displayText text) hs h ht
    · exact encode_completes (encodesText_displayNumber n) hs h ht
  obtain ⟨hv, hl⟩ := hdone
  exact ⟨hv, hl, exec_scrollIrq_of_unset (s := { t with scrPend := true }) ht rfl hv
    (Nat.ne_of_gt (Nat.zero_lt_of_lt hl))⟩

end Sys2Proof.Machine

/-! ## The scroll timer's two steps (42_scroll.md R140, R142) -/

namespace Sys2Proof.Machine

/-- An operation has no step in a faulted block or outside its "Enabled when" (20_memory.md R69;
60_exceptions.md R221). -/
theorem exec_ne_next {i : Instr} {s : State} (h : s.faultCode ≠ .none ∨ opEnabled i s = false)
    (t : State) : exec i s ≠ .next t := by
  intro ht
  obtain ⟨hf, he, -⟩ := exec_eq_next.1 ht
  exact h.elim (· hf) fun hd => Bool.false_ne_true (hd.symm.trans he)

theorem exec_scrollExpire {s : State} (hf : s.faultCode = .none) (he : s.scrEn = true) :
    exec .scrollExpire s = .next { s with scrPend := true } :=
  exec_enabled (i := .scrollExpire) hf he

/-- Settles O30: setting a flag that is set already gives the same state. -/
theorem scrollExpireResult : Obligations.ScrollExpireResult := by
  refine ⟨rfl, fun s => ⟨exec_scrollExpire, fun hf he hp => ?_,
    exec_ne_next (i := .scrollExpire)⟩⟩
  have hsame : { s with scrPend := true } = s := by rw [← hp]
  rw [exec_scrollExpire hf he, hsame]

/-- The tick on an empty buffer only clears the flag (42_scroll.md R142). -/
theorem exec_scrollIrq_empty {s : State} (hf : s.faultCode = .none) (hp : s.scrPend = true)
    (hl : s.imgLen = 0) :
    exec .scrollIrq s = .next { s with scrPend := false, imask := false } := by
  obtain ⟨-, e⟩ | ⟨hne, -⟩ := scrollIrq_cases Config.params s
  · rw [exec_enabled (i := .scrollIrq) hf hp, e]
  · exact absurd hl hne

/-- The tick on content moves the cursor and shifts the frame (42_scroll.md R142). -/
theorem exec_scrollIrq_content {s : State} (hf : s.faultCode = .none) (hp : s.scrPend = true)
    (hl : s.imgLen ≠ 0) :
    exec .scrollIrq s = .next { s with
      curIdx := nextCursor s, curValid := true
      frame := shiftIn s.frame (imgAt s (nextCursor s))
      scrPend := false, imask := false } := by
  obtain ⟨h0, -⟩ | ⟨-, e⟩ := scrollIrq_cases Config.params s
  · exact absurd h0 hl
  · rw [exec_enabled (i := .scrollIrq) hf hp, e]

theorem nextCursor_eq_ite (s : State) :
    nextCursor s = if s.curValid = false ∨ s.imgLen - 1 ≤ s.curIdx then 0 else s.curIdx + 1 := by
  simp [nextCursor]

theorem imgAt_of_getElem? {s : State} {i : Nat} {v : ColImage} (h : s.imgBuf[i]? = some v) :
    imgAt s i = v := by
  rw [imgAt, List.getD_eq_getElem?_getD, h, Option.getD_some]

/-- Settles O31: the cursor's new value is `nextCursor`, and the column is read there. -/
theorem scrollIrqResult : Obligations.ScrollIrqResult := by
  refine ⟨rfl, fun s => ⟨exec_ne_next (i := .scrollIrq), exec_scrollIrq_empty,
    fun hf hp hl idx hidx => ?_⟩⟩
  obtain rfl : idx = nextCursor s := hidx.trans (nextCursor_eq_ite s).symm
  refine ⟨nextCursor_lt s hl, fun v hv => ?_⟩
  rw [exec_scrollIrq_content hf hp hl, imgAt_of_getElem? hv]
  rfl

end Sys2Proof.Machine

/-! ## Ticks in a row (42_scroll.md R144, R145) -/

namespace Sys2Proof.Machine

/-- The state one tick leaves where there is content: SCROLL_EXPIRE, then SCROLL_IRQ. -/
def afterTick (s : State) : State :=
  { s with
    curIdx := nextCursor s, curValid := true
    frame := shiftIn s.frame (imgAt s (nextCursor s))
    scrPend := false, imask := false }

/-- The `j`th column of the content taken cyclically (42_scroll.md R145). -/
def cyclicColumn (s : State) (j : Nat) : ColImage := (content s).getD (j % s.imgLen) 0

section Ticks

variable {s : State}

@[simp] theorem afterTick_iterate_faultCode (k : Nat) (s : State) :
    (afterTick^[k] s).faultCode = s.faultCode :=
  congrFun (Function.iterate_invariant (f := afterTick) (g := State.faultCode) rfl k) s

@[simp] theorem afterTick_iterate_scrEn (k : Nat) (s : State) :
    (afterTick^[k] s).scrEn = s.scrEn :=
  congrFun (Function.iterate_invariant (f := afterTick) (g := State.scrEn) rfl k) s

@[simp] theorem afterTick_iterate_imgLen (k : Nat) (s : State) :
    (afterTick^[k] s).imgLen = s.imgLen :=
  congrFun (Function.iterate_invariant (f := afterTick) (g := State.imgLen) rfl k) s

@[simp] theorem afterTick_iterate_imgBuf (k : Nat) (s : State) :
    (afterTick^[k] s).imgBuf = s.imgBuf :=
  congrFun (Function.iterate_invariant (f := afterTick) (g := State.imgBuf) rfl k) s

theorem runAs_ticks (hf : s.faultCode = .none) (he : s.scrEn = true) (hl : s.imgLen ≠ 0) (k : Nat) :
    runAs (ticks k) s = .next (afterTick^[k] s) := by
  induction k with
  | zero => rfl
  | succ k ih =>
    rw [ticks_succ, runAs_append ih, Function.iterate_succ_apply']
    exact runAs_tick (by simpa using hf) (by simpa using he) (by simpa using hl)

/-- A set cursor goes round the content, one column a tick (42_scroll.md R144). -/
theorem afterTick_iterate_cursor (hv : s.curValid = true) (hlt : s.curIdx < s.imgLen) (k : Nat) :
    (afterTick^[k] s).curValid = true ∧
      (afterTick^[k] s).curIdx = (s.curIdx + k) % s.imgLen := by
  induction k with
  | zero => exact ⟨hv, (Nat.mod_eq_of_lt hlt).symm⟩
  | succ k ih =>
    obtain ⟨hvk, hk⟩ := ih
    have hltk : (afterTick^[k] s).curIdx < (afterTick^[k] s).imgLen := by
      rw [hk, afterTick_iterate_imgLen]
      exact Nat.mod_lt _ (Nat.zero_lt_of_lt hlt)
    rw [Function.iterate_succ_apply']
    refine ⟨rfl, (nextCursor_eq_mod hvk hltk).trans ?_⟩
    rw [hk, afterTick_iterate_imgLen, Nat.mod_add_mod, Nat.add_assoc]

/-- An unset cursor is at column 0 after the first tick, and goes round from there
(42_scroll.md R145). -/
theorem afterTick_iterate_cursor_of_unset (hv : s.curValid = false) (hl : s.imgLen ≠ 0) (k : Nat) :
    (afterTick^[k + 1] s).curValid = true ∧ (afterTick^[k + 1] s).curIdx = k % s.imgLen := by
  have h0 : (afterTick s).curIdx = 0 := by simp [afterTick, nextCursor, hv]
  have hlt : (afterTick s).curIdx < (afterTick s).imgLen := h0 ▸ Nat.pos_of_ne_zero hl
  have h := afterTick_iterate_cursor (s := afterTick s) rfl hlt k
  rwa [h0, Nat.zero_add] at h

theorem shiftIn_toList (f : Vector ColImage 5) (v : ColImage) :
    (shiftIn f v).toList = (f.toList ++ [v]).drop 1 := by
  obtain ⟨⟨cols⟩, hlen⟩ := f
  match cols, hlen with
  | [_, _, _, _, _], _ => rfl

theorem imgAt_eq_content_getD {i : Nat} (hb : s.imgLen ≤ s.imgBuf.length) (hi : i < s.imgLen) :
    imgAt s i = (content s).getD i 0 := by
  have hc : i < (content s).length := (lt_min hi (hi.trans_le hb)).trans_eq List.length_take.symm
  rw [imgAt, List.getD_eq_getElem _ _ (hi.trans_le hb), List.getD_eq_getElem _ _ hc]
  exact List.getElem_take.symm

/-- The tick after `k` others shifts in column `k` of the content, read at the cursor it sets
(42_scroll.md R145, R146). -/
theorem afterTick_iterate_succ_frame (hs : s.storageWf) (hv : s.curValid = false)
    (hl : s.imgLen ≠ 0) (k : Nat) :
    (afterTick^[k + 1] s).frame = shiftIn (afterTick^[k] s).frame (cyclicColumn s k) := by
  have hcur : nextCursor (afterTick^[k] s) = k % s.imgLen := by
    have h := (afterTick_iterate_cursor_of_unset hv hl k).2
    rwa [Function.iterate_succ_apply'] at h
  have hcol : imgAt (afterTick^[k] s) (k % s.imgLen) = cyclicColumn s k := by
    rw [imgAt, afterTick_iterate_imgBuf]
    exact imgAt_eq_content_getD (hs.2.trans hs.1.ge) (Nat.mod_lt _ (Nat.pos_of_ne_zero hl))
  rw [Function.iterate_succ_apply', ← hcol, ← hcur]
  rfl

/-- The frame after `k` ticks: `k` columns have left it and the content's first `k` have come in
(42_scroll.md R145). -/
theorem afterTick_iterate_frame (hs : s.storageWf) (hv : s.curValid = false)
    (hl : s.imgLen ≠ 0) (k : Nat) :
    (afterTick^[k] s).frame.toList =
      (s.frame.toList ++ (List.range k).map (cyclicColumn s)).drop k := by
  induction k with
  | zero => simp
  | succ k ih =>
    rw [afterTick_iterate_succ_frame hs hv hl, shiftIn_toList, ih, List.range_succ, List.map_append,
      ← List.append_assoc, ← List.drop_append_of_le_length (by simp), List.drop_drop]
    rfl

end Ticks

/-- Settles O32: the cursor's value after any number of ticks, at IMG_LEN ticks and below. -/
theorem cursorIsCyclic : Obligations.CursorIsCyclic := by
  intro s hf he hv hlt
  have hl : s.imgLen ≠ 0 := Nat.ne_zero_of_lt hlt
  refine ⟨⟨_, runAs_ticks hf he hl _, ?_⟩, fun k hk h0 => ⟨_, runAs_ticks hf he hl k, ?_⟩⟩
  · obtain ⟨hvt, ht⟩ := afterTick_iterate_cursor hv hlt s.imgLen
    rw [Nat.add_mod_right, Nat.mod_eq_of_lt hlt] at ht
    exact ⟨hvt, ht⟩
  · obtain ⟨hvt, ht⟩ := afterTick_iterate_cursor hv hlt k
    rw [h0, Nat.zero_add, Nat.mod_eq_of_lt hk] at ht
    exact ⟨hvt, ht⟩

/-- Settles O33: the cursor and the frame after any number of ticks. -/
theorem scrolledFrame : Obligations.ScrolledFrame := by
  intro s k hf he hs hv hl hk
  obtain ⟨j, rfl⟩ : ∃ j, k = j + 1 := Nat.exists_eq_add_of_le' hk
  obtain ⟨hvt, ht⟩ := afterTick_iterate_cursor_of_unset hv hl j
  exact ⟨_, runAs_ticks hf he hl _, hvt, ht, afterTick_iterate_frame hs hv hl _⟩

end Sys2Proof.Machine

/-! ## The scroll timer in a fair execution (42_scroll.md R141; 70_reset_and_hazards.md R271) -/

namespace Sys2Proof.Machine

/-- SCR_EN's one writer, INIT, never clears it (`controlRegisterWriters`; 10_state.md R33). -/
theorem exec_keeps_scrEn {i : Instr} {s t : State} (he : s.scrEn = true)
    (h : exec i s = .next t) : t.scrEn = true := by
  by_cases hsame : t.scrEn = s.scrEn
  · exact hsame.trans he
  · obtain ⟨-, -, hw, -⟩ := controlRegisterWriters i s t h
    obtain rfl := hw hsame
    obtain ⟨-, -, rfl⟩ := exec_eq_next.1 h
    obtain ⟨-, -, e⟩ | ⟨-, e⟩ := init_cases Config.params s <;> rw [e]
    exact he

theorem stepAs_keeps_scrEn {c : Choice} {s t : State} (he : s.scrEn = true)
    (h : stepAs c s = .next t) : t.scrEn = true := by
  obtain ⟨-, i, rest, -, hx⟩ | ⟨-, op, rest, -, rfl⟩ | ⟨-, hx⟩ | ⟨-, hx⟩ | ⟨-, hx⟩ | ⟨-, hx⟩ |
    ⟨-, i, -, hx⟩ := stepAs_next h
  · exact exec_keeps_scrEn (s := { s with hostQueue := rest }) he hx
  · exact he
  all_goals exact exec_keeps_scrEn he hx

theorem Execution.scrEn_stays (e : Execution) {n k : Nat} (hn : (e.state n).scrEn = true)
    (hk : n ≤ k) : (e.state k).scrEn = true :=
  Nat.le_induction hn
    (fun m _ ih => stepAs_keeps_scrEn ih (stepAs_eq_stepAsWith ▸ (e.isStep m).2)) k hk

/-- No state of an execution is faulted, so once SCR_EN = 1 the scroll timer's step stays
enabled. -/
theorem Execution.scrollTimer_stays_enabled (e : Execution) {n k : Nat}
    (hn : (e.state n).scrEn = true) (hk : n ≤ k) : enabled .scrollTimer (e.state k) = true :=
  enabled_scrollTimer.2 ⟨enabled_running (e.isStep k).1, e.scrEn_stays hn hk⟩

/-- Settles O57: fairness lets a timer that stays enabled take its step after every point. -/
theorem fairScrollTimerKeepsTicking : Obligations.FairScrollTimerKeepsTicking := by
  intro e hfair n hn k hk
  obtain ⟨m, hm, hoff | htick⟩ := hfair .scrollTimer k
  · have hon := e.scrollTimer_stays_enabled hn (hk.trans hm)
    exact absurd (hoff.symm.trans hon) Bool.false_ne_true
  · exact ⟨m, hm, htick⟩

end Sys2Proof.Machine

/-! ## The transform and the snapshot (43_display_driver.md R164, R170) -/

namespace Sys2Proof.Machine

theorem transform_eq_true {m : PosMap} {f : Vector ColImage 5} {pr : Fin 9} {pc : Fin 3} :
    (transform m f)[pr][pc] = true ↔ ∃ r k, m.cell r k = (pr, pc) ∧ frameBit f r k = true := by
  rw [transform_apply]
  exact anyMapped_eq_true

/-- Settles O38: a bit of the transform is the search for a lit cell that the map sends there. -/
theorem transformFollowsTheMap : Obligations.TransformFollowsTheMap := by
  intro m f pr pc
  refine ⟨transform_eq_true, fun hout => ?_⟩
  rw [← Bool.not_eq_true, transform_eq_true]
  rintro ⟨r, k, hcell, -⟩
  exact hout r k hcell

/-- Settles O40: the rule of DRV_SNAPSHOT, with its bits read through the map. -/
theorem snapshotResult : Obligations.SnapshotResult :=
  ⟨rfl, fun s => ⟨fun hf hp => ⟨transform Config.posMap s.frame, fun _ _ => transform_eq_true,
      exec_enabled (i := .drvSnapshot) hf (decide_eq_true hp)⟩,
    fun h => exec_ne_next (i := .drvSnapshot) (h.imp_right decide_eq_false)⟩⟩

/-- Settles O25: the command's two cases, by its precondition. -/
theorem runDisplayLoopResult : Obligations.RunDisplayLoopResult := by
  refine ⟨rfl, fun s hf => ?_⟩
  rw [exec_enabled (i := .runDisplayLoop) hf rfl]
  obtain ⟨hl, hi, e⟩ | ⟨hbad, e⟩ := runDisplayLoop_cases Config.params s <;> rw [e]
  · exact ⟨fun _ _ => rfl, by simp [hl, hi]⟩
  · exact ⟨fun hl hi => by simp [hl, hi] at hbad, fun _ => rfl⟩

end Sys2Proof.Machine

/-! ## The dwell and the four output writes (43_display_driver.md R161, R165 to R169) -/

namespace Sys2Proof.Machine

section Writes

variable {s : State}

theorem exec_drvDwell (hf : s.faultCode = .none) (hp : s.drvPhase = .dwell) :
    exec .drvDwell s = .next { s with drvR := 0, drvPhase := .rowOff } :=
  exec_enabled (i := .drvDwell) hf (decide_eq_true hp)

theorem consumeDraw_eq (s : State) :
    ∃ script draws, consumeDraw s = { s with pinScript := script, pinDraws := draws } :=
  useDraw_eq Config.params s

/-- A driver step that writes an output ends as its rule's cases say, by the draw
(43_display_driver.md R161). -/
theorem exec_outputWrite (i : Instr) {id : Word} {done : State} (hf : s.faultCode = .none)
    (he : opEnabled i s = true)
    (hcases : (writeFails Config.params s = false ∧ opRule Config.params i s = done) ∨
      (writeFails Config.params s = true ∧ opRule Config.params i s =
        raiseFault .gpioWriteFailure id (useDraw Config.params s))) :
    (drawnFail s = false → exec i s = .next done) ∧
      (drawnFail s = true → exec i s =
        .next { consumeDraw s with faultCode := .gpioWriteFailure, faultInfo := id }) := by
  rw [exec_enabled hf he]
  obtain ⟨hw, e⟩ | ⟨hw, e⟩ := hcases <;> rw [writeFails_params] at hw <;> rw [e, hw]
  · exact ⟨fun _ => rfl, nofun⟩
  · exact ⟨nofun, fun _ => rfl⟩

theorem exec_drvColOn (hf : s.faultCode = .none) (hp : s.drvPhase = .colOn)
    (hw : drawnFail s = false) :
    exec .drvColOn s = .next
      { setOut (.col s.drvC) .high (consumeDraw s) with drvR := 0, drvPhase := .row } :=
  (exec_outputWrite .drvColOn hf (decide_eq_true hp) (colOnBody_cases _ s)).1 hw

theorem exec_drvRow (hf : s.faultCode = .none) (hp : s.drvPhase = .row)
    (hw : drawnFail s = false) :
    exec .drvRow s = .next
      (advanceRow .dwell (setOut (.row s.drvR) (rowLevel s) (consumeDraw s))) :=
  (exec_outputWrite .drvRow hf (decide_eq_true hp) (rowBody_cases _ s)).1 hw

theorem exec_drvRowOff (hf : s.faultCode = .none) (hp : s.drvPhase = .rowOff)
    (hw : drawnFail s = false) :
    exec .drvRowOff s = .next
      (advanceRow .colOff (setOut (.row s.drvR) .high (consumeDraw s))) :=
  (exec_outputWrite .drvRowOff hf (decide_eq_true hp) (rowOffBody_cases _ s)).1 hw

theorem exec_drvColOff (hf : s.faultCode = .none) (hp : s.drvPhase = .colOff)
    (hw : drawnFail s = false) :
    exec .drvColOff s = .next (advanceColumn (setOut (.col s.drvC) .low (consumeDraw s))) :=
  (exec_outputWrite .drvColOff hf (decide_eq_true hp) (colOffBody_cases _ s)).1 hw

/-- After the write of row DRV_R the driver is at the next row or, after row 8, in the next phase
(43_display_driver.md R166, R168). -/
theorem advanceRow_setOut_consumeDraw (after : DrvPhase) (x : Level) (s : State) :
    (∀ h : s.drvR.val < 8, advanceRow after (setOut (.row s.drvR) x (consumeDraw s)) =
        { consumeDraw s with
          rowOut := s.rowOut.set s.drvR x, drvR := ⟨s.drvR.val + 1, by omega⟩ }) ∧
      (s.drvR.val = 8 → advanceRow after (setOut (.row s.drvR) x (consumeDraw s)) =
        { consumeDraw s with rowOut := s.rowOut.set s.drvR x, drvPhase := after }) := by
  obtain ⟨script, draws, hd⟩ := consumeDraw_eq s
  rw [hd]
  exact ⟨fun h => dif_pos h, fun h => dif_neg (by simp [h])⟩

/-- After the write of column DRV_C the driver is at the next column or, after column 2, at a new
snapshot (43_display_driver.md R169). -/
theorem advanceColumn_setOut_consumeDraw (x : Level) (s : State) :
    (∀ h : s.drvC.val < 2, advanceColumn (setOut (.col s.drvC) x (consumeDraw s)) =
        { consumeDraw s with
          colOut := s.colOut.set s.drvC x
          drvC := ⟨s.drvC.val + 1, by omega⟩
          drvPhase := .colOn }) ∧
      (s.drvC.val = 2 → advanceColumn (setOut (.col s.drvC) x (consumeDraw s)) =
        { consumeDraw s with colOut := s.colOut.set s.drvC x, drvPhase := .snap }) := by
  obtain ⟨script, draws, hd⟩ := consumeDraw_eq s
  rw [hd]
  exact ⟨fun h => dif_pos h, fun h => dif_neg (by simp [h])⟩

end Writes

/-- Settles O43: the rule of DRV_DWELL. -/
theorem dwellResult : Obligations.DwellResult :=
  ⟨rfl, fun _ => ⟨exec_drvDwell, fun h =>
    exec_ne_next (i := .drvDwell) (h.imp_right decide_eq_false)⟩⟩

/-- Settles O41: the write of the column, by its draw. -/
theorem colOnResult : Obligations.ColOnResult := by
  refine ⟨rfl, fun s hf => ⟨fun hp hw => ?_, fun hp => ?_, fun hp =>
    exec_ne_next (i := .drvColOn) (.inr (decide_eq_false hp))⟩⟩
  · obtain ⟨script, draws, hd⟩ := consumeDraw_eq s
    rw [exec_drvColOn hf hp hw, hd]
    rfl
  · exact (exec_outputWrite .drvColOn hf (decide_eq_true hp) (colOnBody_cases _ s)).2

/-- Settles O42: the write of the row's level, by its draw. -/
theorem rowResult : Obligations.RowResult := by
  refine ⟨rfl, fun s hf => ⟨fun hp hw => ?_, fun hp => ?_, fun hp =>
    exec_ne_next (i := .drvRow) (.inr (decide_eq_false hp))⟩⟩
  · rintro _ rfl
    rw [exec_drvRow hf hp hw]
    obtain ⟨hnext, hlast⟩ := advanceRow_setOut_consumeDraw .dwell (rowLevel s) s
    exact ⟨fun h => congrArg _ (hnext h), fun h => congrArg _ (hlast h)⟩
  · exact (exec_outputWrite .drvRow hf (decide_eq_true hp) (rowBody_cases _ s)).2

/-- Settles O44: the write of the row's inactive level, by its draw. -/
theorem rowOffResult : Obligations.RowOffResult := by
  refine ⟨rfl, fun s hf => ⟨fun hp hw => ?_, fun hp => ?_, fun hp =>
    exec_ne_next (i := .drvRowOff) (.inr (decide_eq_false hp))⟩⟩
  · rw [exec_drvRowOff hf hp hw]
    obtain ⟨hnext, hlast⟩ := advanceRow_setOut_consumeDraw .colOff .high s
    exact ⟨fun h => congrArg _ (hnext h), fun h => congrArg _ (hlast h)⟩
  · exact (exec_outputWrite .drvRowOff hf (decide_eq_true hp) (rowOffBody_cases _ s)).2

/-- Settles O45: the write of the column's inactive level, by its draw. -/
theorem colOffResult : Obligations.ColOffResult := by
  refine ⟨rfl, fun s hf => ⟨fun hp hw => ?_, fun hp => ?_, fun hp =>
    exec_ne_next (i := .drvColOff) (.inr (decide_eq_false hp))⟩⟩
  · rw [exec_drvColOff hf hp hw]
    obtain ⟨hnext, hlast⟩ := advanceColumn_setOut_consumeDraw .low s
    exact ⟨fun h => congrArg _ (hnext h), fun h => congrArg _ (hlast h)⟩
  · exact (exec_outputWrite .drvColOff hf (decide_eq_true hp) (colOffBody_cases _ s)).2

end Sys2Proof.Machine

/-! ## The LEDs at a dwell (43_display_driver.md R171, R173; 10_state.md R29) -/

namespace Sys2Proof.Machine

/-- Where the outputs show DRV_PHYS in the driven column, the lit LEDs are its bits there: a bit of
an image lies on a cell that the map reaches. -/
theorem ledLit_of_rowShows {m : PosMap} {s : State}
    (hcol : ∀ c : Fin 3, s.colOut[c] = .high ↔ c = s.drvC) (hrow : ∀ r, rowShows s r)
    (himage : ∃ f, s.drvPhys = transform m f) (pr : Fin 9) (pc : Fin 3) :
    ledLit m s pr pc = true ↔ pc = s.drvC ∧ s.drvPhys[pr][pc] = true := by
  have hlow : s.rowOut[pr] = .low ↔ s.drvPhys[pr][s.drvC] = true := by
    rw [hrow pr, physBit]
    split <;> simp_all
  have hmapped : s.drvPhys[pr][pc] = true → anyMapped m pr pc (fun _ _ => true) = true := by
    obtain ⟨f, hf⟩ := himage
    rw [hf, transform_eq_true, anyMapped_eq_true]
    exact fun ⟨r, k, hcell, _⟩ => ⟨r, k, hcell, rfl⟩
  simp only [ledLit, Bool.and_eq_true, decide_eq_true_eq, hcol, hlow]
  constructor
  · rintro ⟨⟨-, rfl⟩, hbit⟩
    exact ⟨rfl, hbit⟩
  · rintro ⟨rfl, hbit⟩
    exact ⟨⟨hmapped hbit, rfl⟩, hbit⟩

theorem columnDriven_iff {d : DrvPhase} :
    d.columnDriven = true ↔ d = .row ∨ d = .dwell ∨ d = .rowOff ∨ d = .colOff := by
  cases d <;> decide

/-- Settles O48: the invariants of the columns, the rows and the snapshot. -/
theorem oneColumnIsDriven : Obligations.OneColumnIsDriven := by
  intro s h
  have hdriven := fun c => (h.columnHigh c).1
  refine ⟨fun c c' hc hc' => (hdriven c hc).1.trans (hdriven c' hc').1.symm,
    fun c hc => (hdriven c hc).imp_right columnDriven_iff.1, fun hp => ?_⟩
  have hcol := h.columnHigh
  have hrow := h.rows
  simp only [rowsInPhase, hp, DrvPhase.columnDriven, and_true] at hcol hrow
  exact ledLit_of_rowShows hcol hrow h.snapshot

end Sys2Proof.Machine

/-! ## What the driver reads (43_display_driver.md R174) -/

namespace Sys2Proof.Machine

/-- `t` with what the driver reads and writes taken from `s`: its registers, the outputs, the fault
registers and the draws (43_display_driver.md R174). -/
def withDriverOf (s t : State) : State :=
  { t with
    rowOut := s.rowOut, colOut := s.colOut, faultCode := s.faultCode, faultInfo := s.faultInfo
    drvPhase := s.drvPhase, drvC := s.drvC, drvR := s.drvR, drvPhys := s.drvPhys
    pinScript := s.pinScript, pinDraws := s.pinDraws }

section Noninterference

variable {p : Params}

theorem consumeDraw_withDriverOf (s t : State) :
    consumeDraw (withDriverOf s t) = withDriverOf (consumeDraw s) t := by
  simp only [consumeDraw, withDriverOf]
  cases s.pinScript <;> rfl

theorem useDraw_withDriverOf (s t : State) :
    useDraw p (withDriverOf s t) = withDriverOf (useDraw p s) t := by
  unfold useDraw
  split
  · exact consumeDraw_withDriverOf s t
  · rfl

theorem setOut_withDriverOf (out : Output) (x : Level) (s t : State) :
    setOut out x (withDriverOf s t) = withDriverOf (setOut out x s) t := by
  cases out <;> rfl

theorem advanceRow_withDriverOf (after : DrvPhase) (s t : State) :
    advanceRow after (withDriverOf s t) = withDriverOf (advanceRow after s) t := by
  obtain ⟨h, e⟩ | ⟨h, e⟩ := advanceRow_cases after s <;> rw [e]
  · exact dif_pos h
  · exact dif_neg h.not_lt

theorem advanceColumn_withDriverOf (s t : State) :
    advanceColumn (withDriverOf s t) = withDriverOf (advanceColumn s) t := by
  obtain ⟨h, e⟩ | ⟨h, e⟩ := advanceColumn_cases s <;> rw [e]
  · exact dif_pos h
  · exact dif_neg h.not_lt

/-- An output write, and what the step does after it, reads and writes the driver's part alone. -/
theorem settle_pinWrite_withDriverOf (out : Output) (x : Level) {next : State → State}
    (hnext : ∀ u v, next (withDriverOf u v) = withDriverOf (next u) v) (s t : State) :
    settle ((pinWrite p out x (withDriverOf s t)).bind fun u => .ok (next u)) =
      withDriverOf (settle ((pinWrite p out x s).bind fun u => .ok (next u))) t := by
  obtain ⟨hw, e⟩ | ⟨hw, e⟩ := pinWrite_cases p out x s <;> rw [e]
  · have hw' : writeFails p (withDriverOf s t) = false := hw
    rw [pinWrite_succeeds hw', useDraw_withDriverOf, setOut_withDriverOf]
    exact hnext _ _
  · have hw' : writeFails p (withDriverOf s t) = true := hw
    rw [pinWrite_fails hw', useDraw_withDriverOf]
    rfl

/-- The five steps after the snapshot (43_display_driver.md R174). -/
def AfterSnapshot (i : Instr) : Prop :=
  i = .drvColOn ∨ i = .drvRow ∨ i = .drvDwell ∨ i = .drvRowOff ∨ i = .drvColOff

theorem opRule_withDriverOf {i : Instr} (hi : AfterSnapshot i) (s t : State) :
    opRule p i (withDriverOf s t) = withDriverOf (opRule p i s) t := by
  obtain rfl | rfl | rfl | rfl | rfl := hi
  · exact settle_pinWrite_withDriverOf _ _ (fun _ _ => rfl) s t
  · exact settle_pinWrite_withDriverOf _ _ (advanceRow_withDriverOf _) s t
  · rfl
  · exact settle_pinWrite_withDriverOf _ _ (advanceRow_withDriverOf _) s t
  · exact settle_pinWrite_withDriverOf _ _ advanceColumn_withDriverOf s t

theorem opEnabled_withDriverOf {i : Instr} (hi : AfterSnapshot i) (s t : State) :
    opEnabled i (withDriverOf s t) = opEnabled i s := by
  obtain rfl | rfl | rfl | rfl | rfl := hi <;> rfl

/-- A step on another state's driver part ends with that part as it would end there. -/
theorem exec_withDriverOf {i : Instr} (hi : AfterSnapshot i) {s s' : State}
    (h : exec i s = .next s') (t : State) :
    exec i (withDriverOf s t) = .next (withDriverOf s' t) := by
  obtain ⟨hf, he, rfl⟩ := exec_eq_next.1 h
  exact exec_eq_next.2 ⟨hf, (opEnabled_withDriverOf hi s t).trans he, opRule_withDriverOf hi s t⟩

end Noninterference

/-- Settles O49: a state that agrees with `s` on the driver's part does not change when that part
is put into it. -/
theorem driverReadsNoSharedState : Obligations.DriverReadsNoSharedState := by
  intro i s t s' hi hcode hinfo hphase hc hr hphys hrows hcols hscript hdraws h
  have ht : withDriverOf s t = t := by
    rw [withDriverOf, hcode, hinfo, hphase, hc, hr, hphys, hrows, hcols, hscript, hdraws]
  have hstep := exec_withDriverOf hi h t
  rw [ht] at hstep
  have hframe := (exec_writesOnly h).fields
  refine ⟨?_, ?_, ?_, ?_, ?_, ?_, _, hstep, rfl, rfl, rfl, rfl, rfl, rfl, rfl, rfl⟩
  all_goals
    rw [hframe]
    obtain rfl | rfl | rfl | rfl | rfl := hi <;> rfl

end Sys2Proof.Machine

/-! ## The invariants of the driver alone (43_display_driver.md R171, R174) -/

namespace Sys2Proof.Machine

/-- A block whose loop runs, to put a driver's part into: what is not the driver's meets the
invariants. -/
def runningBlock : State := { State.reset with initDone := true, loopRun := true, scrEn := true }

/-- The driver's part of `s` meets the invariants, whatever the rest of `s` is. -/
def DriverInv (s : State) : Prop := Inv (withDriverOf s runningBlock)

section DriverInv

variable {s t : State}

/-- With every output inactive, a driver that is about to drive a column meets the invariants. -/
theorem driverInv_of_inactive (hp : s.drvPhase = .colOn) (hrow : ∀ r : Fin 9, s.rowOut[r] = .high)
    (hcol : ∀ c : Fin 3, s.colOut[c] = .low) (himage : ∃ f, s.drvPhys = transform Config.posMap f) :
    DriverInv s :=
  { resetWith_inv params_admissible.anHour with
    columnHigh := fun c => iff_of_false (by simp [withDriverOf, hcol c])
      (by simp [withDriverOf, hp, DrvPhase.columnDriven])
    rows := fun r => by simpa [rowsInPhase, rowInactive, withDriverOf, hp] using hrow r
    snapshot := himage
    pending := nofun
    started := fun _ => rfl
    loop := fun _ => rfl
    scrollTimer := rfl
    scrollPending := nofun
    driverOff := iff_of_false (by simp [withDriverOf, hp]) nofun }

/-- The driver reads no more than its part (43_display_driver.md R174), so it keeps its invariants
in any block. -/
theorem DriverInv.afterExec (h : DriverInv s) {i : Instr} (hi : AfterSnapshot i)
    (he : exec i s = .next t) : DriverInv t :=
  execWith_keeps_inv h (exec_eq_execWith ▸ exec_withDriverOf hi he runningBlock)

/-- At the end of a cycle every output is inactive (43_display_driver.md R172). -/
theorem DriverInv.inactive_of_snap (h : DriverInv s) (hp : s.drvPhase = .snap) :
    (∀ r : Fin 9, s.rowOut[r] = .high) ∧ ∀ c : Fin 3, s.colOut[c] = .low := by
  have hd : (withDriverOf s runningBlock).drvPhase = .snap := hp
  refine ⟨fun r => ?_, fun c => ?_⟩
  · have hr := h.rows r
    rwa [rowsInPhase, hd] at hr
  · have hc : s.colOut[c] ≠ .high := h.colOut_ne_high (by rw [hd]; rfl) c
    cases hl : s.colOut[c] with
    | low => rfl
    | high => exact absurd hl hc

theorem DriverInv.ledLit_dwell (h : DriverInv s) (hp : s.drvPhase = .dwell) (pr : Fin 9)
    (pc : Fin 3) :
    ledLit Config.posMap s pr pc = true ↔ pc = s.drvC ∧ s.drvPhys[pr][pc] = true := by
  obtain ⟨-, -, hlit⟩ := oneColumnIsDriven _ h
  exact hlit hp pr pc

end DriverInv

end Sys2Proof.Machine

/-! ## Runs of the driver through a cycle (43_display_driver.md R162, R172) -/

namespace Sys2Proof.Machine

/-- Where the driver is: DRV_PHASE, DRV_C and DRV_R (10_state.md R42). -/
abbrev DriverPlace := DrvPhase × Fin 3 × Fin 9

/-- A state of the cycle that takes its snapshot in `s`: the driver is at place `q`, the draws to
come are `script`, and the outputs are at the given levels. -/
def cycleState (s : State) (q : DriverPlace) (script : List Bool) (rows : Vector Level 9)
    (cols : Vector Level 3) : State :=
  { s with
    drvPhys := transform Config.posMap s.frame
    drvPhase := q.1, drvC := q.2.1, drvR := q.2.2, rowOut := rows, colOut := cols
    pinScript := script, imask := false }

/-- In the cycle of `s`, `n` driver steps go from place `q` to place `q'` with `w` output writes, all
of which are drawn to succeed, and keep the driver's invariants. -/
def DriverRun (s : State) (n w : Nat) (q q' : DriverPlace) : Prop :=
  ∀ script rows cols, DriverInv (cycleState s q (List.replicate w false ++ script) rows cols) →
    ∃ rows' cols', DriverInv (cycleState s q' script rows' cols') ∧
      runAs (List.replicate n .driver)
          (cycleState s q (List.replicate w false ++ script) rows cols) =
        .next (cycleState s q' script rows' cols')

section DriverRun

variable {s : State}

theorem stepAs_driver {i : Instr} {t : State} (hf : s.faultCode = .none)
    (hi : phaseStep s.drvPhase = some i) (he : exec i s = .next t) :
    stepAs .driver s = .next t := by
  rw [stepAs_running hf, agentStep, driverTurn, hi]
  exact he

theorem DriverRun.trans {n m v w : Nat} {a b c : DriverPlace} (hab : DriverRun s n v a b)
    (hbc : DriverRun s m w b c) : DriverRun s (n + m) (v + w) a c := by
  intro script rows cols h
  rw [List.replicate_add v w, List.append_assoc] at h ⊢
  obtain ⟨rows, cols, h, hrun⟩ := hab _ rows cols h
  obtain ⟨rows, cols, h, hrun'⟩ := hbc script rows cols h
  refine ⟨rows, cols, h, ?_⟩
  rw [List.replicate_add, runAs_append hrun, hrun']

theorem afterSnapshot_of_phaseStep {d : DrvPhase} {i : Instr} (hi : phaseStep d = some i)
    (hd : d ≠ .snap) : AfterSnapshot i := by
  cases d <;> cases hi
  case snap => exact absurd rfl hd
  all_goals simp [AfterSnapshot]

/-- One step of the driver after its snapshot. -/
theorem DriverRun.of_exec (hf : s.faultCode = .none) {i : Instr} {w : Nat} {q q' : DriverPlace}
    (hi : phaseStep q.1 = some i) (hd : q.1 ≠ .snap)
    (he : ∀ script rows cols, ∃ rows' cols',
      exec i (cycleState s q (List.replicate w false ++ script) rows cols) =
        .next (cycleState s q' script rows' cols')) : DriverRun s 1 w q q' := by
  intro script rows cols h
  obtain ⟨rows', cols', he⟩ := he script rows cols
  have hinv := h.afterExec (afterSnapshot_of_phaseStep hi hd) he
  exact ⟨rows', cols', hinv, runAs_cons (stepAs_driver hf hi he)⟩

theorem driverRun_colOn (hf : s.faultCode = .none) (c : Fin 3) (r : Fin 9) :
    DriverRun s 1 1 (.colOn, c, r) (.row, c, 0) :=
  .of_exec hf rfl nofun fun _ rows cols =>
    ⟨rows, cols.set c .high, exec_drvColOn hf rfl rfl⟩

theorem driverRun_dwell (hf : s.faultCode = .none) (c : Fin 3) (r : Fin 9) :
    DriverRun s 1 0 (.dwell, c, r) (.rowOff, c, 0) :=
  .of_exec hf rfl nofun fun _ rows cols => ⟨rows, cols, exec_drvDwell hf rfl⟩

/-- DRV_COL_OFF of columns 0 and 1 (43_display_driver.md R169). -/
theorem driverRun_colOff_next (hf : s.faultCode = .none) {c : Fin 3} (hc : c.val < 2) (r : Fin 9) :
    DriverRun s 1 1 (.colOff, c, r) (.colOn, ⟨c.val + 1, by omega⟩, r) :=
  .of_exec hf rfl nofun fun script rows cols =>
    have he := exec_drvColOff (s := cycleState s (.colOff, c, r) (false :: script) rows cols) hf rfl
      rfl
    ⟨rows, cols.set c .low, he.trans (congrArg _ (dif_pos hc))⟩

/-- DRV_COL_OFF of column 2 (43_display_driver.md R169). -/
theorem driverRun_colOff_last (hf : s.faultCode = .none) (r : Fin 9) :
    DriverRun s 1 1 (.colOff, 2, r) (.snap, 2, r) :=
  .of_exec hf rfl nofun fun _ rows cols =>
    ⟨rows, cols.set 2 .low, exec_drvColOff hf rfl rfl⟩

/-- What the two sweeps over the rows have in common: each step writes row DRV_R and advances
(43_display_driver.md R166, R168). -/
def SweepsRows (i : Instr) (d after : DrvPhase) : Prop :=
  ∀ s : State, s.faultCode = .none → s.drvPhase = d → drawnFail s = false →
    ∃ x, exec i s = .next (advanceRow after (setOut (.row s.drvR) x (consumeDraw s)))

/-- A sweep writes the rows from `r` to 8, one a step, and ends in the next phase. -/
theorem driverRun_rows (hf : s.faultCode = .none) {i : Instr} {d after : DrvPhase}
    (hs : SweepsRows i d after) (hi : phaseStep d = some i) (hd : d ≠ .snap) (c : Fin 3) (k : Nat)
    (r : Fin 9) (hr : r.val + k = 8) : DriverRun s (k + 1) (k + 1) (d, c, r) (after, c, 8) := by
  induction k generalizing r with
  | zero =>
    obtain rfl : r = 8 := Fin.ext hr
    refine .of_exec hf hi hd fun script rows cols => ?_
    obtain ⟨x, he⟩ := hs (cycleState s (d, c, 8) (false :: script) rows cols) hf rfl rfl
    exact ⟨rows.set 8 x, cols, he⟩
  | succ k ih =>
    have hlt : r.val < 8 := by omega
    have hstep : DriverRun s 1 1 (d, c, r) (d, c, ⟨r.val + 1, by omega⟩) := by
      refine .of_exec hf hi hd fun script rows cols => ?_
      obtain ⟨x, he⟩ := hs (cycleState s (d, c, r) (false :: script) rows cols) hf rfl rfl
      exact ⟨rows.set r x, cols, he.trans (congrArg _ (dif_pos hlt))⟩
    have hrun := hstep.trans (ih ⟨r.val + 1, by omega⟩ (by simp only; omega))
    rwa [Nat.add_comm 1] at hrun

/-- From a column's first step to its dwell: the column and the 9 rows are written. -/
theorem driverRun_to_dwell (hf : s.faultCode = .none) (c : Fin 3) (r : Fin 9) :
    DriverRun s 10 10 (.colOn, c, r) (.dwell, c, 8) :=
  have hsweep : SweepsRows .drvRow .row .dwell := fun _ hf hp hw => ⟨_, exec_drvRow hf hp hw⟩
  have hrows := driverRun_rows hf hsweep rfl nofun c 8 0 rfl
  (driverRun_colOn hf c r).trans hrows

/-- From a column's dwell to its last step: the 9 rows are written. -/
theorem driverRun_from_dwell (hf : s.faultCode = .none) (c : Fin 3) (r : Fin 9) :
    DriverRun s 10 9 (.dwell, c, r) (.colOff, c, 8) :=
  have hsweep : SweepsRows .drvRowOff .rowOff .colOff :=
    fun _ hf hp hw => ⟨_, exec_drvRowOff hf hp hw⟩
  have hrows := driverRun_rows hf hsweep rfl nofun c 8 0 rfl
  (driverRun_dwell hf c r).trans hrows

/-- A column that is not the last takes 21 steps and 20 writes. -/
theorem driverRun_column (hf : s.faultCode = .none) {c : Fin 3} (hc : c.val < 2) (r : Fin 9) :
    DriverRun s 21 20 (.colOn, c, r) (.colOn, ⟨c.val + 1, by omega⟩, 8) :=
  ((driverRun_to_dwell hf c r).trans (driverRun_from_dwell hf c 8)).trans
    (driverRun_colOff_next hf hc 8)

/-- The dwell of column `c` comes after the columns before it. -/
theorem driverRun_dwell_of_column (hf : s.faultCode = .none) (c : Fin 3) (r : Fin 9) :
    DriverRun s (21 * c.val + 10) (20 * c.val + 10) (.colOn, 0, r) (.dwell, c, 8) := by
  have h1 := driverRun_column hf (c := 0) (by decide) r
  have h2 := h1.trans (driverRun_column hf (c := 1) (by decide) 8)
  match c with
  | 0 => exact driverRun_to_dwell hf 0 r
  | 1 => exact h1.trans (driverRun_to_dwell hf 1 8)
  | 2 => exact h2.trans (driverRun_to_dwell hf 2 8)

/-- The three columns take 63 steps and 60 writes, and a new snapshot comes next. -/
theorem driverRun_columns (hf : s.faultCode = .none) (r : Fin 9) :
    DriverRun s 63 60 (.colOn, 0, r) (.snap, 2, 8) :=
  ((driverRun_dwell_of_column hf 2 r).trans (driverRun_from_dwell hf 2 8)).trans
    (driverRun_colOff_last hf 8)

/-- A run through the columns, with the snapshot's step before it, from a state in SNAP with every
output inactive. -/
theorem runAs_of_driverRun (hf : s.faultCode = .none) (hp : s.drvPhase = .snap)
    (hrow : ∀ r : Fin 9, s.rowOut[r] = .high) (hcol : ∀ c : Fin 3, s.colOut[c] = .low)
    {n w : Nat} {script : List Bool} (hscript : s.pinScript = List.replicate w false ++ script)
    {q : DriverPlace} (hrun : DriverRun s n w (.colOn, 0, s.drvR) q) :
    ∃ rows cols, DriverInv (cycleState s q script rows cols) ∧
      runAs (List.replicate (n + 1) .driver) s = .next (cycleState s q script rows cols) := by
  have hsnap : exec .drvSnapshot s =
      .next (cycleState s (.colOn, 0, s.drvR) s.pinScript s.rowOut s.colOut) :=
    exec_enabled (i := .drvSnapshot) hf (decide_eq_true hp)
  have hinv : DriverInv (cycleState s (.colOn, 0, s.drvR) s.pinScript s.rowOut s.colOut) :=
    driverInv_of_inactive rfl hrow hcol ⟨_, rfl⟩
  have hstep := stepAs_driver hf (by rw [hp]; rfl) hsnap
  rw [hscript] at hinv hstep
  rw [List.replicate_succ, runAs_cons hstep]
  exact hrun script _ _ hinv

end DriverRun

/-- Settles O46: the snapshot and the three columns; the invariants give the outputs at the end. -/
theorem refreshCycleIs64Steps : Obligations.RefreshCycleIs64Steps := by
  intro s script hf hp hrow hcol hscript
  obtain ⟨rows, cols, hinv, hrun⟩ :=
    runAs_of_driverRun hf hp hrow hcol hscript (driverRun_columns hf s.drvR)
  obtain ⟨hrows, hcols⟩ := hinv.inactive_of_snap rfl
  have er : rows = s.rowOut := by
    ext r hr
    exact (hrows ⟨r, hr⟩).trans (hrow ⟨r, hr⟩).symm
  have ec : cols = s.colOut := by
    ext c hc
    exact (hcols ⟨c, hc⟩).trans (hcol ⟨c, hc⟩).symm
  rw [hrun, cycleState, er, ec, ← hp]

/-- Settles O47: at the dwell the invariants tie the lit LEDs to the snapshot's transform. -/
theorem dwellLightsTheSnapshot : Obligations.DwellLightsTheSnapshot := by
  intro s script c hf hp hrow hcol hscript
  have hsplit : List.replicate 60 false =
      List.replicate (20 * c.val + 10) false ++ List.replicate (50 - 20 * c.val) false := by
    rw [← List.replicate_add]
    congr 1
    omega
  rw [hsplit, List.append_assoc] at hscript
  obtain ⟨rows, cols, hinv, hrun⟩ :=
    runAs_of_driverRun hf hp hrow hcol hscript (driverRun_dwell_of_column hf c s.drvR)
  refine ⟨_, hrun, rfl, rfl, fun pr pc => ?_⟩
  exact (hinv.ledLit_dwell rfl pr pc).trans (and_congr_right' transform_eq_true)

end Sys2Proof.Machine

/-! ## INIT and START_COUNTDOWN (44_tick_scheduler.md R190, R191) -/

namespace Sys2Proof.Machine

/-- Settles O19: the check of the critical section holds, or it fails. -/
theorem initResult : Obligations.InitResult := by
  refine ⟨rfl, fun s hf => ⟨fun hl hd => ?_, fun hbad => ?_⟩⟩
  · rw [exec_enabled (i := .init) hf rfl, opRule, commandRule_accepted hl (by simpa using hd)]
    rfl
  · exact (preconditionFailureIsProtocolViolation .init s rfl hf).1
      fun ⟨hl, hd⟩ => by simp [hl, hd] at hbad

/-- START_COUNTDOWN after INIT, before RUN and from IDLE runs its statements as one critical
section. -/
theorem exec_startCountdown {s : State} (h : Word) (hf : s.faultCode = .none)
    (hl : s.loopRun = false) (hd : s.initDone = true) (hi : s.cdState = .idle) :
    exec (.startCountdown h) s = .next (atomic (fun t => .ok (beginCountdown h t)) s) := by
  rw [exec_enabled (i := .startCountdown h) hf rfl, opRule,
    commandRule_accepted hl (by simp [hd, hi])]

/-- Settles O24: for an accepted command the two branches of its statements, for any other the
failed check. -/
theorem startCountdownResult : Obligations.StartCountdownResult := by
  refine fun h => ⟨rfl, fun s hf => ⟨fun hl hd hi => ⟨fun hne => ?_, fun hz => ?_⟩, fun hbad => ?_⟩⟩
  · rw [exec_startCountdown h hf hl hd hi, atomic, beginCountdown, if_neg hne]
    rfl
  · rw [exec_startCountdown h hf hl hd hi, atomic, beginCountdown, if_pos hz]
    rfl
  · exact (preconditionFailureIsProtocolViolation (.startCountdown h) s rfl hf).1
      fun ⟨hl, hd, hi⟩ => by simp [hl, hd, hi] at hbad

end Sys2Proof.Machine

/-! ## The countdown's two steps (44_tick_scheduler.md R193, R194) -/

namespace Sys2Proof.Machine

section Countdown

variable {s : State}

/-- The last sub-tick of an hour (44_tick_scheduler.md R193). -/
theorem exec_countSubtick_rollover (hf : s.faultCode = .none) (he : s.cdEn = true)
    (h : s.cdSub = 28799) :
    exec .countSubtick s = .next { s with cdSub := 0, cdPend := true } := by
  rw [exec_eq_execWith, execWith_countSubtick hf he]
  exact if_pos h

/-- Every other sub-tick (44_tick_scheduler.md R193). -/
theorem exec_countSubtick_counts (hf : s.faultCode = .none) (he : s.cdEn = true)
    (h : s.cdSub ≠ 28799) :
    exec .countSubtick s = .next { s with cdSub := s.cdSub + 1 } := by
  rw [exec_eq_execWith, execWith_countSubtick hf he]
  exact if_neg h

/-- The decrement in RUNNING, field by field (44_tick_scheduler.md R194 (b), (c)). -/
theorem decrementHours_of_running (hr : s.cdState = .running) :
    decrementHours s = { s with
      cdHours := s.cdHours - 1
      cdState := if s.cdHours - 1 = 0 then .stopped else .running
      cdEn := if s.cdHours - 1 = 0 then false else s.cdEn } := by
  rw [decrementHours_eq, hr]

/-- COUNT_IRQ outside RUNNING only clears its flag (44_tick_scheduler.md R194). -/
theorem exec_countIrq_of_not_running (hf : s.faultCode = .none) (hp : s.cdPend = true)
    (hr : s.cdState ≠ .running) :
    exec .countIrq s = .next { s with cdPend := false, imask := false } := by
  rw [exec_enabled (i := .countIrq) hf hp]
  obtain ⟨-, e⟩ | ⟨hrun, -⟩ := countIrq_cases Config.params s
  · rw [e]
  · exact absurd hrun hr

/-- COUNT_IRQ in RUNNING, where the number of the hours left fits. -/
theorem exec_countIrq_fits {cols : List ColImage} (hf : s.faultCode = .none) (hs : s.storageWf)
    (hp : s.cdPend = true) (hr : s.cdState = .running)
    (hcols : cols = textContent Config.fontRom (decimalText ((s.cdHours - 1).toNat / 24)))
    (h : cols.length ≤ Config.cap) :
    exec .countIrq s = .next { withContent (decrementHours s) cols with
      cdPend := false, imask := false } := by
  subst hcols
  rw [exec_enabled (i := .countIrq) hf hp, opRule_countIrq_fits hr rfl hs.1 h]
  rfl

/-- COUNT_IRQ in RUNNING, where it does not fit (90_conflicts.md C10). -/
theorem exec_countIrq_overflows {cols : List ColImage} (hf : s.faultCode = .none)
    (hs : s.storageWf) (hp : s.cdPend = true) (hr : s.cdState = .running)
    (hcols : cols = textContent Config.fontRom (decimalText ((s.cdHours - 1).toNat / 24)))
    (h : Config.cap < cols.length) :
    ∃ buf : List ColImage, buf.length = Config.cap ∧
      exec .countIrq s = .next (faulted
        { decrementHours s with imgBuf := buf, imgLen := Config.cap, curValid := false }
        .capacityExceeded (BitVec.ofNat 32 (Config.cap + 1))) := by
  subst hcols
  obtain ⟨buf, hlen, e⟩ := opRule_countIrq_overflows (p := Config.params) hr rfl hs.1 h
  refine ⟨buf, hlen, ?_⟩
  rw [exec_enabled (i := .countIrq) hf hp, e]
  rfl

end Countdown

/-- Settles O34: the two branches of the counter. -/
theorem countSubtickResult : Obligations.CountSubtickResult :=
  ⟨rfl, fun _ => ⟨exec_ne_next (i := .countSubtick), exec_countSubtick_rollover,
    exec_countSubtick_counts⟩⟩

/-- Settles O35: outside RUNNING, and in RUNNING with a number that fits or does not. -/
theorem countIrqResult : Obligations.CountIrqResult := by
  refine ⟨rfl, fun s hs => ⟨exec_ne_next (i := .countIrq), exec_countIrq_of_not_running,
    fun hf hp hr k cols hk hcols => ?_⟩⟩
  subst hk
  refine ⟨fun hfit => ?_, fun hover => ?_⟩
  · rw [exec_countIrq_fits hf hs hp hr hcols hfit, decrementHours_of_running hr]
    rfl
  · obtain ⟨buf, hlen, e⟩ := exec_countIrq_overflows hf hs hp hr hcols hover
    rw [decrementHours_of_running hr] at e
    exact ⟨buf, hlen, e⟩

end Sys2Proof.Machine

/-! ## An hour from its start, and STOPPED (44_tick_scheduler.md R192, R196, R197) -/

namespace Sys2Proof.Machine

section Hour

variable {s t u : State}

theorem stepAs_countTimer (h : exec .countSubtick s = .next t) : stepAs .countTimer s = .next t :=
  (stepAs_running (exec_eq_next.1 h).1).trans h

theorem stepAs_countHandler (h : exec .countIrq s = .next t) : stepAs .countHandler s = .next t :=
  (stepAs_running (exec_eq_next.1 h).1).trans h

/-- A run goes on by one step at its end. -/
theorem runAs_concat {cs : List Choice} {c : Choice} (h : runAs cs s = .next t)
    (hc : stepAs c t = .next u) : runAs (cs ++ [c]) s = .next u :=
  (runAs_append h).trans (runAs_cons hc)

/-- Within an hour the sub-ticks only count (44_tick_scheduler.md R196). -/
theorem runAs_subticks (hf : s.faultCode = .none) (he : s.cdEn = true) (h0 : s.cdSub = 0) {k : Nat}
    (hk : k < 28800) :
    runAs (List.replicate k .countTimer) s = .next { s with cdSub := BitVec.ofNat 32 k } := by
  induction k with
  | zero =>
    have hsame : { s with cdSub := 0 } = s := by rw [← h0]
    exact congrArg Host.Outcome.next hsame.symm
  | succ k ih =>
    have hne : BitVec.ofNat 32 k ≠ 28799 := by bv_omega
    have hstep := exec_countSubtick_counts (s := { s with cdSub := BitVec.ofNat 32 k }) hf he hne
    rw [List.replicate_succ', BitVec.ofNat_add]
    exact runAs_concat (ih (by omega)) (stepAs_countTimer hstep)

/-- The sub-tick after 28,799 others ends the hour (44_tick_scheduler.md R196). -/
theorem runAs_hour (hf : s.faultCode = .none) (he : s.cdEn = true) (h0 : s.cdSub = 0) :
    runAs (List.replicate 28800 .countTimer) s = .next { s with cdPend := true } := by
  have hsame : { s with cdSub := 0, cdPend := true } = { s with cdPend := true } := by rw [← h0]
  have hstep := exec_countSubtick_rollover (s := { s with cdSub := 28799 }) hf he rfl
  rw [List.replicate_succ', ← hsame]
  exact runAs_concat (runAs_subticks hf he h0 (by omega)) (stepAs_countTimer hstep)

end Hour

/-- Settles O36: the sub-ticks of the hour, its last, and the handler with the decremented hours. -/
theorem oneHourIs28800Subticks : Obligations.OneHourIs28800Subticks := by
  intro s hf hs hr hne he h0 hp
  have hrun := runAs_hour hf he h0
  refine ⟨fun k => runAs_subticks hf he h0, hrun, fun cols hcols hfit => ?_⟩
  have hhours : (s.cdHours - 1).toNat = s.cdHours.toNat - 1 := by bv_omega
  have hirq := exec_countIrq_fits (s := { s with cdPend := true }) hf hs rfl hr
    (hhours ▸ hcols) hfit
  refine ⟨_, runAs_concat hrun (stepAs_countHandler hirq),
    ?_, rfl, rfl, content_withContent _ cols⟩
  rw [decrementHours_eq]
  rfl

/-- CD_STATE, CD_EN, CD_PEND, CD_HOURS and CD_SUB: the countdown's registers (10_state.md R30). -/
def countdownRegisters (s : State) : CdState × Bool × Bool × Word × Word :=
  (s.cdState, s.cdEn, s.cdPend, s.cdHours, s.cdSub)

section Stopped

variable {s t : State}

/-- In STOPPED each writer of the countdown's registers is rejected or has no step: START_COUNTDOWN
asks for IDLE, and the timer and the handler for their flags (44_tick_scheduler.md R192, R197). -/
theorem exec_keeps_countdownRegisters {i : Instr} (hs : s.cdState = .stopped) (he : s.cdEn = false)
    (hp : s.cdPend = false) (h : exec i s = .next t) :
    countdownRegisters t = countdownRegisters s := by
  cases i with
  | startCountdown hours =>
    obtain ⟨-, -, rfl⟩ := exec_eq_next.1 h
    obtain ⟨-, -, hi, -⟩ | e := startCountdown_cases Config.params hours s
    · exact absurd (hi.symm.trans hs) nofun
    · rw [e]
      rfl
  | countSubtick => exact absurd h (exec_ne_next (i := .countSubtick) (.inr he) t)
  | countIrq => exact absurd h (exec_ne_next (i := .countIrq) (.inr hp) t)
  | _ =>
    rw [(exec_writesOnly h).fields]
    rfl

theorem stepAs_keeps_countdownRegisters {c : Choice} (hs : s.cdState = .stopped)
    (he : s.cdEn = false) (hp : s.cdPend = false) (h : stepAs c s = .next t) :
    countdownRegisters t = countdownRegisters s := by
  obtain ⟨-, i, rest, -, hx⟩ | ⟨-, op, rest, -, rfl⟩ | ⟨-, hx⟩ | ⟨-, hx⟩ | ⟨-, hx⟩ | ⟨-, hx⟩ |
    ⟨-, i, -, hx⟩ := stepAs_next h
  · exact exec_keeps_countdownRegisters (s := { s with hostQueue := rest }) hs he hp hx
  · rfl
  all_goals exact exec_keeps_countdownRegisters hs he hp hx

end Stopped

/-- Settles O37: the timer and the handler are disabled by their flags, and every step keeps the
countdown's registers. -/
theorem stoppedIsForEver : Obligations.StoppedIsForEver := by
  intro s hs he hp
  refine ⟨?_, ?_, fun c t h => ?_⟩
  · simp [enabled, he]
  · simp [enabled, hp]
  · have hkept := stepAs_keeps_countdownRegisters hs he hp h
    simp only [countdownRegisters, Prod.mk.injEq, hs, he, hp] at hkept
    exact hkept

end Sys2Proof.Machine

/-! ## A recorded fault stops the block (60_exceptions.md R221) -/

namespace Sys2Proof.Machine

section Halted

variable {s : State}

theorem enabled_halted (hf : s.faultCode ≠ .none) (c : Choice) : enabled c s = false := by
  rw [← Bool.not_eq_true]
  exact fun he => hf (enabled_running he)

theorem stepAs_halted (hf : s.faultCode ≠ .none) (c : Choice) :
    stepAs c s = .fault (.halted s.faultCode s.faultInfo) := if_pos hf

theorem step_halted (hf : s.faultCode ≠ .none) :
    step s = .fault (.halted s.faultCode s.faultInfo) := if_pos hf

end Halted

/-- Settles O12: each operation, each agent's step and the block's step looks at FAULT_CODE first. -/
theorem haltedBlockHasNoStep : Obligations.HaltedBlockHasNoStep :=
  fun _ hf => ⟨fun _ => exec_halted hf, fun c => ⟨enabled_halted hf c, stepAs_halted hf c⟩,
    step_halted hf⟩

end Sys2Proof.Machine

/-! ## Which fault an operation raises (60_exceptions.md R220, R222) -/

namespace Sys2Proof.Machine

/-- The faults an operation can raise, each with its FAULT_INFO: the table of 60_exceptions.md R220,
read by operation. -/
def raisableFaults (p : Params) (i : Instr) (s : State) : List (FaultCode × Word) :=
  match i with
  | .init | .startCountdown _ | .runDisplayLoop => [(.protocolViolation, zext32 i.opcode)]
  | .displayText _ | .displayNumber _ =>
    [(.protocolViolation, zext32 i.opcode),
      (.capacityExceeded, BitVec.ofNat 32 (p.cap + 1))]
  | .countIrq | .appendGlyph _ => [(.capacityExceeded, BitVec.ofNat 32 (p.cap + 1))]
  | .drvColOn | .drvColOff => [(.gpioWriteFailure, Output.id (.col s.drvC))]
  | .drvRow | .drvRowOff => [(.gpioWriteFailure, Output.id (.row s.drvR))]
  | _ => []

section Raised

variable {p : Params} {s t : State}

/-- An operation that can raise no fault leaves FAULT_CODE alone. -/
theorem opRule_keeps_faultCode {i : Instr} (hr : mayRaise i = false) :
    (opRule p i s).faultCode = s.faultCode := by
  obtain ⟨hc, -⟩ | ⟨hraise, -⟩ := (opRule_writesOnly p i s).fault
  · exact hc
  · exact absurd (hr.symm.trans hraise) Bool.false_ne_true

/-- An encoding command that records a fault overflowed the buffer or was rejected. -/
theorem EncodeOutcome.raised {op : Byte} (ho : EncodeOutcome p op s t) (hf : s.faultCode = .none)
    (hn : t.faultCode ≠ .none) :
    (t.faultCode, t.faultInfo) ∈
      [(.protocolViolation, zext32 op), (.capacityExceeded, BitVec.ofNat 32 (p.cap + 1))] := by
  obtain ⟨buf, len, -, -, rfl | rfl⟩ | rfl := ho
  · exact absurd hf hn
  · simp
  · simp [faulted]

/-- An output write that records a fault is one that failed (43_display_driver.md R161). -/
theorem outputWrite_raised {id : Word} {done : State} (hd : done.faultCode = s.faultCode)
    (ht : writeFails p s = false ∧ t = done ∨
      writeFails p s = true ∧ t = raiseFault .gpioWriteFailure id (useDraw p s))
    (hf : s.faultCode = .none) (hn : t.faultCode ≠ .none) :
    (t.faultCode, t.faultInfo) ∈ [(FaultCode.gpioWriteFailure, id)] := by
  obtain ⟨-, rfl⟩ | ⟨-, rfl⟩ := ht
  · exact absurd (hd.trans hf) hn
  · exact List.mem_singleton_self _

/-- A fault that an operation leaves where there was none is one of those it can raise. -/
theorem opRule_raised {i : Instr} (hf : s.faultCode = .none)
    (hn : (opRule p i s).faultCode ≠ .none) :
    ((opRule p i s).faultCode, (opRule p i s).faultInfo) ∈ raisableFaults p i s := by
  cases i with
  | init =>
    obtain ⟨-, -, e⟩ | ⟨-, e⟩ := init_cases p s <;> rw [e] at hn ⊢
    · exact absurd hf hn
    · exact List.mem_singleton_self _
  | displayText text => exact (displayText_cases p text s).raised hf hn
  | displayNumber n => exact (displayNumber_cases p n s).raised hf hn
  | startCountdown h =>
    obtain ⟨-, -, -, e⟩ | e := startCountdown_cases p h s <;> rw [e] at hn ⊢
    · exact absurd ((beginCountdown_faultCode h s).trans hf) hn
    · exact List.mem_singleton_self _
  | runDisplayLoop =>
    obtain ⟨-, -, e⟩ | ⟨-, e⟩ := runDisplayLoop_cases p s <;> rw [e] at hn ⊢
    · exact absurd hf hn
    · exact List.mem_singleton_self _
  | countIrq =>
    obtain ⟨-, e⟩ | ⟨-, buf, len, -, -, e | e⟩ := countIrq_cases p s <;> rw [e] at hn ⊢
    · exact absurd hf hn
    · rw [decrementHours_eq] at hn
      exact absurd hf hn
    · exact List.mem_singleton_self _
  | appendGlyph c =>
    obtain ⟨buf, len, -, -, e | e⟩ := appendGlyph_cases p c s <;> rw [e] at hn ⊢
    · exact absurd hf hn
    · exact List.mem_singleton_self _
  | drvColOn => exact outputWrite_raised (by simp) (colOnBody_cases p s) hf hn
  | drvRow => exact outputWrite_raised (by simp) (rowBody_cases p s) hf hn
  | drvRowOff => exact outputWrite_raised (by simp) (rowOffBody_cases p s) hf hn
  | drvColOff => exact outputWrite_raised (by simp) (colOffBody_cases p s) hf hn
  | _ => exact absurd ((opRule_keeps_faultCode rfl).trans hf) hn

theorem exec_raised {i : Instr} (h : exec i s = .next t) (hn : t.faultCode ≠ .none) :
    (t.faultCode, t.faultInfo) ∈ raisableFaults Config.params i s := by
  obtain ⟨hf, -, rfl⟩ := exec_eq_next.1 h
  exact opRule_raised hf hn

end Raised

/-- Settles O54: an operation leaves the fault registers alone or records a fault of its row of
`raisableFaults`. -/
theorem faultsAreRaisedAsListed : Obligations.FaultsAreRaisedAsListed := by
  intro i s t h
  obtain ⟨hf, -, -⟩ := exec_eq_next.1 h
  refine ⟨hf, ?_⟩
  obtain ⟨hc, hi⟩ | ⟨-, hn⟩ := (exec_writesOnly h).fault
  · exact .inl ⟨hc.trans hf, hi⟩
  · replace h := exec_raised h hn
    cases i with
    | init | startCountdown | runDisplayLoop =>
      obtain ⟨hc, hi⟩ := Prod.mk.inj (List.mem_singleton.1 h)
      simp [hc, hi, Instr.isHostCommand]
    | displayText | displayNumber =>
      obtain ⟨hc, hi⟩ | ⟨hc, hi⟩ := (List.mem_pair.1 h).imp Prod.mk.inj Prod.mk.inj
      all_goals simp [hc, hi, Instr.isHostCommand]
    | countIrq | appendGlyph | drvColOn | drvColOff | drvRow | drvRowOff =>
      obtain ⟨hc, hi⟩ := Prod.mk.inj (List.mem_singleton.1 h)
      simp [hc, hi, Output.id]
    | _ => exact absurd h List.not_mem_nil

end Sys2Proof.Machine

/-! ## The pending flags (60_exceptions.md R224, R225; 44_tick_scheduler.md R198) -/

namespace Sys2Proof.Machine

section Pending

variable {s t : State}

/-- SCR_PEND is cleared by its handler alone (`controlRegisterWriters`; 10_state.md R34). -/
theorem exec_keeps_scrPend {i : Instr} (hi : i ≠ .scrollIrq) (hp : s.scrPend = true)
    (h : exec i s = .next t) : t.scrPend = true := by
  by_cases hsame : t.scrPend = s.scrPend
  · exact hsame.trans hp
  · obtain ⟨-, -, -, hw, -⟩ := controlRegisterWriters i s t h
    obtain ⟨-, ht⟩ | ⟨hirq, -⟩ := hw hsame
    · exact ht
    · exact absurd hirq hi

/-- Under the invariants CD_PEND is cleared by its handler alone: START_COUNTDOWN clears it in IDLE,
where it is not set (44_tick_scheduler.md R191, R195). -/
theorem exec_keeps_cdPend {i : Instr} (hinv : Inv s) (hi : i ≠ .countIrq) (hp : s.cdPend = true)
    (h : exec i s = .next t) : t.cdPend = true := by
  by_cases hsame : t.cdPend = s.cdPend
  · exact hsame.trans hp
  · obtain ⟨-, -, -, -, -, -, -, -, hw, -⟩ := controlRegisterWriters i s t h
    obtain ⟨-, ht⟩ | ⟨⟨hours, rfl⟩ | hirq, -⟩ := hw hsame
    · exact ht
    · obtain ⟨hf, -, rfl⟩ := exec_eq_next.1 h
      obtain ⟨-, -, hidle, -⟩ | e := startCountdown_cases Config.params hours s
      · exact absurd (hidle.symm.trans (hinv.pending hf hp)) nofun
      · rw [e]
        exact hp
    · exact absurd hirq hi

/-- The driver's steps are no handlers. -/
theorem phaseStep_not_handler {d : DrvPhase} {i : Instr} (h : phaseStep d = some i) :
    i ≠ .scrollIrq ∧ i ≠ .countIrq := by
  cases d <;> cases h <;> exact ⟨nofun, nofun⟩

/-- An agent's step only records a reserved opcode's fault, or it is one operation, which is a handler's
only when the agent is that handler. -/
theorem stepAs_next_handler {c : Choice} (h : stepAs c s = .next t) :
    ∃ bytes, (∃ op, t = faulted { s with hostQueue := bytes } .illegalCommand (zext32 op)) ∨
      ∃ i, exec i { s with hostQueue := bytes } = .next t ∧
        (i = .scrollIrq → c = .scrollHandler) ∧ (i = .countIrq → c = .countHandler) := by
  obtain ⟨-, i, rest, hd, hx⟩ | ⟨-, op, rest, -, ht⟩ | ⟨-, hx⟩ | ⟨-, hx⟩ | ⟨hc, hx⟩ | ⟨hc, hx⟩ |
    ⟨-, i, hi, hx⟩ := stepAs_next h
  · have hcmd := decodeHost_isHostCommand hd
    refine ⟨rest, .inr ⟨i, hx, ?_, ?_⟩⟩ <;> rintro rfl <;> cases hcmd
  · exact ⟨rest, .inl ⟨op, ht⟩⟩
  · exact ⟨s.hostQueue, .inr ⟨_, hx, nofun, nofun⟩⟩
  · exact ⟨s.hostQueue, .inr ⟨_, hx, nofun, nofun⟩⟩
  · exact ⟨s.hostQueue, .inr ⟨_, hx, fun _ => hc, nofun⟩⟩
  · exact ⟨s.hostQueue, .inr ⟨_, hx, nofun, fun _ => hc⟩⟩
  · obtain ⟨hscroll, hcount⟩ := phaseStep_not_handler hi
    exact ⟨s.hostQueue, .inr ⟨i, hx, (absurd · hscroll), (absurd · hcount)⟩⟩

/-- The tick raises no fault and leaves CD_PEND alone (42_scroll.md R142). -/
theorem exec_scrollIrq_keeps_countHandler (hp : s.cdPend = true)
    (h : exec .scrollIrq s = .next t) : enabled .countHandler t = true := by
  have hkept : t.cdPend = s.cdPend := by
    rw [(exec_writesOnly h).fields]
    rfl
  obtain ⟨hf, -, rfl⟩ := exec_eq_next.1 h
  exact enabled_countHandler.2 ⟨(opRule_keeps_faultCode rfl).trans hf, hkept.trans hp⟩

end Pending

/-- Settles O55: no operation but the flag's handler clears it, and only its own agent runs that. -/
theorem pendingIsNeverLost : Obligations.PendingIsNeverLost := by
  intro c s t hinv h
  obtain ⟨bytes, ⟨op, rfl⟩ | ⟨i, hx, hscroll, hcount⟩⟩ := stepAs_next_handler h
  · exact ⟨fun hp _ => hp, fun hp _ => hp⟩
  · exact ⟨fun hp hc => exec_keeps_scrPend (s := { s with hostQueue := bytes }) (mt hscroll hc) hp hx,
      fun hp hc => exec_keeps_cdPend (hinv.withHostQueue bytes) (mt hcount hc) hp hx⟩

/-- Settles O56: each handler's step completes and leaves the other's flag as it was. -/
theorem eitherHandlerMayRunFirst : Obligations.EitherHandlerMayRunFirst := by
  intro s hf hs hc
  have hscroll := exec_enabled (i := .scrollIrq) hf hs
  have hcount := exec_enabled (i := .countIrq) hf hc
  exact ⟨enabled_scrollHandler.2 ⟨hf, hs⟩, enabled_countHandler.2 ⟨hf, hc⟩,
    ⟨_, (stepAs_running hf).trans hscroll, exec_scrollIrq_keeps_countHandler hc hscroll⟩,
    ⟨_, stepAs_countHandler hcount,
      fun ht => enabled_scrollHandler.2 ⟨ht, exec_keeps_scrPend (i := .countIrq) nofun hs hcount⟩⟩⟩

end Sys2Proof.Machine

/-! ## Reset (70_reset_and_hazards.md R251, R252) -/

namespace Sys2Proof.Machine

/-- An LED is dark while its column is LOW (10_state.md R29). -/
theorem ledLit_of_colOut_low {m : PosMap} {s : State} {pr : Fin 9} {pc : Fin 3}
    (hcol : s.colOut[pc] = .low) : ledLit m s pr pc = false := by
  simp only [ledLit, hcol, reduceCtorEq, decide_false, Bool.and_false, Bool.false_and]

/-- At reset both timers are off, no flag is pending and the driver is OFF, so no agent but the host has
an enabled step, whatever bytes it offers. -/
theorem eq_host_of_enabled_reset {c : Choice} {bytes : List Byte}
    (h : enabled c { State.reset with hostQueue := bytes } = true) : c = .host := by
  cases c with
  | host => rfl
  | scrollTimer => cases (enabled_scrollTimer.1 h).2
  | countTimer => cases (enabled_countTimer.1 h).2
  | scrollHandler => cases (enabled_scrollHandler.1 h).2
  | countHandler => cases (enabled_countHandler.1 h).2
  | driver => exact absurd rfl (enabled_driver.1 h).2

/-- Settles O13: a step is one of an enabled agent, the host is the only one, and it is not enabled while
it offers no byte. -/
theorem onlyTheHostStepsFirst : Obligations.OnlyTheHostStepsFirst := by
  refine ⟨fun _ _ => eq_host_of_enabled_reset, fun t h => ?_⟩
  obtain ⟨c, hnext, -⟩ := step_next h
  have henabled := nextAgent_enabled hnext
  obtain rfl : c = .host := eq_host_of_enabled_reset (bytes := []) henabled
  exact (enabled_host.1 henabled).2 rfl

theorem reset_frame : ∀ k : Fin 5, State.reset.frame[k] = 0b00000 := by decide

theorem reset_physBit : ∀ (pr : Fin 9) (pc : Fin 3), physBit State.reset pr pc = false := by decide

theorem reset_colOut : ∀ j : Fin 3, State.reset.colOut[j] = .low := by decide

/-- Settles O14: the registers' values are the reset state's own, and with every column LOW no LED is
lit. -/
theorem resetState : Obligations.ResetState :=
  ⟨reset_frame, rfl, reset_storageWf.1, rfl, rfl, rfl, rfl, rfl, rfl, rfl, rfl, rfl, rfl, rfl, rfl, rfl,
    rfl, rfl, rfl, reset_physBit, (resetWith_outputs Config.params).1, reset_colOut,
    fun _ pc => ledLit_of_colOut_low (reset_colOut pc)⟩

end Sys2Proof.Machine
